-- ==== Sys2Proof/Word.lean ====
section
/-! DEFINITION. The two word types of the block: the byte of its registers and bus phases, and the 32-bit
command word (spec R9). -/

namespace Sys2Proof

/-- An 8-bit register, operand or bus byte (R9). -/
abbrev Byte := BitVec 8

/-- A 32-bit command word, and the width of RESULT (R9, R35, R70). -/
abbrev Word := BitVec 32

end Sys2Proof
end

