-- ==== Sys2Proof/Syntax.lean ====
section
/-! DEFINITION. The commands of the block (one constructor per row of spec/opcode_table.json) and the lines of
its assembler, which name the same commands and three pseudo-instructions with operands not yet bounded. -/

namespace Sys2Proof

/-- A command (R72). An operand field a command does not use is no part of it (R71). -/
inductive Instr where
  | start
  | stop
  | writeByte (c : Byte)
  | readAck
  | readNack
  | getStatus
  | readReg (offset : Byte)
  | writeTxn (dev reg data : Byte)
  | readTxn (dev reg : Byte)
  | fsmEvent
  deriving DecidableEq, Repr

/-- A line of assembly (R82, R83): operands are the numbers as written, before the check that each fits 8 bits. -/
inductive AsmLine where
  | start
  | stop
  | writeByte (c : Nat)
  | readAck
  | readNack
  | getStatus
  | readReg (offset : Nat)
  | writeTxn (dev reg data : Nat)
  | readTxn (dev reg : Nat)
  | fsmEvent
  /-- pseudo-instruction: `START` -/
  | restart
  /-- pseudo-instruction: `READ_REG 0x04` -/
  | getLast
  /-- pseudo-instruction: `READ_REG 0x03` -/
  | getStep
  deriving DecidableEq, Repr

end Sys2Proof
end

