-- ==== Sys2Proof/Config.lean ====
section
/-! DEFINITION. What one implementation fixes (the parameters of R8), the names of the status codes (R79), the
agents and the moves of the environment (R11, R12, R110), and the free values: constants with no body. -/

namespace Sys2Proof

/-- The two contexts that issue commands (R207). -/
inductive Ctx where
  | main
  | handler
  deriving DecidableEq, Repr, Inhabited

/-- The acknowledge bit of a byte (R18). -/
inductive Ack where
  | ack
  | nack
  deriving DecidableEq, Repr, Inhabited

/-- What BUS may answer to an operation (R110); which answers an operation admits is `admits` in Engine.lean. -/
inductive Answer where
  /-- a start or a stop is done -/
  | done
  /-- the peripheral's acknowledge of a transmitted byte -/
  | acked (a : Ack)
  /-- the byte a receive gets -/
  | byte (v : Byte)
  | busError
  deriving DecidableEq, Repr, Inhabited

/-- One choice of the interleaving (R12): a context takes its step, or ENGINE completes the operation in flight
with BUS's answer. A stall is ENGINE never moving. -/
inductive Move where
  | context (c : Ctx)
  | engine (a : Answer)
  deriving DecidableEq, Repr, Inhabited

/-- CHECK_MODE (R8). -/
inductive CheckMode where
  | inert
  | live
  deriving DecidableEq, Repr

/-- ADDR_MODE (R8). -/
inductive AddrMode where
  | raw
  | shifted
  deriving DecidableEq, Repr

/-- The thirteen names of R79. -/
inductive StatusName where
  | busError
  | startSent
  | repStartSent
  | slaWAck
  | slaWNack
  | dataTxAck
  | dataTxNack
  | arbLost
  | slaRAck
  | slaRNack
  | dataRxAck
  | dataRxNack
  | noInfo
  deriving DecidableEq, Repr

/-- The names in the order of R79. -/
def StatusName.all : List StatusName :=
  [.busError, .startSent, .repStartSent, .slaWAck, .slaWNack, .dataTxAck, .dataTxNack, .arbLost, .slaRAck,
   .slaRNack, .dataRxAck, .dataRxNack, .noInfo]

/-- STATUS_CODES (R8): the 8-bit masked value of each name. -/
structure StatusCodes where
  busError : Byte
  startSent : Byte
  repStartSent : Byte
  slaWAck : Byte
  slaWNack : Byte
  dataTxAck : Byte
  dataTxNack : Byte
  arbLost : Byte
  slaRAck : Byte
  slaRNack : Byte
  dataRxAck : Byte
  dataRxNack : Byte
  noInfo : Byte
  deriving DecidableEq, Repr

/-- `STATUS_CODES[n]`. -/
def StatusCodes.value (t : StatusCodes) : StatusName → Byte
  | .busError => t.busError
  | .startSent => t.startSent
  | .repStartSent => t.repStartSent
  | .slaWAck => t.slaWAck
  | .slaWNack => t.slaWNack
  | .dataTxAck => t.dataTxAck
  | .dataTxNack => t.dataTxNack
  | .arbLost => t.arbLost
  | .slaRAck => t.slaRAck
  | .slaRNack => t.slaRNack
  | .dataRxAck => t.dataRxAck
  | .dataRxNack => t.dataRxNack
  | .noInfo => t.noInfo

/-- The default table of R79. -/
def StatusCodes.default : StatusCodes where
  busError := 0x00
  startSent := 0x08
  repStartSent := 0x10
  slaWAck := 0x18
  slaWNack := 0x20
  dataTxAck := 0x28
  dataTxNack := 0x30
  arbLost := 0x38
  slaRAck := 0x40
  slaRNack := 0x48
  dataRxAck := 0x50
  dataRxNack := 0x58
  noInfo := 0xF8

/-- The parameters of R8. `waitBound = none` is WAIT_BOUND = NONE. -/
structure Config where
  checkMode : CheckMode
  addrMode : AddrMode
  waitBound : Option Nat
  fsmDev : Byte
  fsmReg : Byte
  statusCodes : StatusCodes
  psBits : BitVec 3
  admitBusError : Bool
  dataReset : Byte
  deriving DecidableEq, Repr

/-- FSM_DEV of the default configuration: R8 leaves it OPEN. DESIGN CHOICE (entry 2): a constant no proof can see. -/
opaque Config.openFsmDev : Byte

/-- FSM_REG of the default configuration: R8 leaves it OPEN (entry 2). -/
opaque Config.openFsmReg : Byte

/-- PS_BITS of the default configuration: R8 leaves it OPEN (entry 2). -/
opaque Config.openPsBits : BitVec 3

/-- DATA_RESET of the default configuration: R8 leaves it OPEN, any value (entry 2). -/
opaque Config.openDataReset : Byte

/-- `draw()` of R16: the free bytes of R135, one for each value of the counter `State.draws` (entry 10). -/
opaque Config.freeByte : Nat → Byte

/-- The free choice of the next move where the state lists none: any interleaving and any answer of BUS (R12,
R110), one for each value of the counter `State.moves` (entry 3). -/
opaque Config.freeMove : Nat → Move

/-- SEQ.BYTE before a READ_TXN has recorded its third byte: R42 gives it no value (entry 11). -/
opaque Config.unsetSeqByte : Byte

/-- The default configuration of R8. -/
def Config.default : Config where
  checkMode := .inert
  addrMode := .raw
  waitBound := none
  fsmDev := Config.openFsmDev
  fsmReg := Config.openFsmReg
  statusCodes := StatusCodes.default
  psBits := Config.openPsBits
  admitBusError := true
  dataReset := Config.openDataReset

end Sys2Proof
end

