-- ==== Sys2Proof/WellFormed.lean ====
section
/-! DEFINITION. The checks on what comes from outside: an assembly line's operands (R82), a status-code table
(R80) and a configuration (R8). Every term of `Instr` is a well-formed command: its operands are 8-bit by type,
so no further check of an instruction exists. -/

namespace Sys2Proof

/-- An operand of assembly is 0 to 255 (R82). -/
def asmOperandOk (n : Nat) : Bool := decide (n < 256)

/-- "An operand outside 0 to 255 is an assembly error" (R82). -/
def AsmLine.wf : AsmLine → Bool
  | .writeByte c => asmOperandOk c
  | .readReg off => asmOperandOk off
  | .writeTxn dev reg data => asmOperandOk dev && asmOperandOk reg && asmOperandOk data
  | .readTxn dev reg => asmOperandOk dev && asmOperandOk reg
  | .start | .stop | .readAck | .readNack | .getStatus | .fsmEvent | .restart | .getLast | .getStep => true

/-- The constraints of R80: every value has bits 2:0 zero, and the thirteen values are pairwise distinct. -/
def StatusCodes.wf (t : StatusCodes) : Bool :=
  (StatusName.all.all fun n => (t.value n).extractLsb' 0 3 == 0#3) && decide (StatusName.all.map t.value).Nodup

/-- The domains of R8: a bound of the wait is at least 1, and the table meets R80. -/
def Config.wf (c : Config) : Bool :=
  (match c.waitBound with
   | none => true
   | some n => decide (1 ≤ n)) && c.statusCodes.wf

end Sys2Proof
end

