-- ==== Sys2Proof/Decode.lean ====
section
/-! DEFINITION. The command word (R70 to R74): its fields, the decoder, total on every 32-bit word and rejecting
by name, the encoder from the same field table, and what an assembly line stands for (R82, R83). -/

namespace Sys2Proof

/-- Why a word spells no command (R73). -/
inductive IllegalWord where
  /-- RSV is not 0 -/
  | reservedField
  /-- OP is 0x0 or 0xB to 0xF -/
  | opcode
  deriving DecidableEq, Repr

/-- OP, bits 31:28 (R70). -/
def opField (w : Word) : BitVec 4 := w.extractLsb' 28 4

/-- RSV, bits 27:24 (R70). -/
def rsvField (w : Word) : BitVec 4 := w.extractLsb' 24 4

/-- A, bits 23:16 (R70). -/
def aField (w : Word) : Byte := w.extractLsb' 16 8

/-- B, bits 15:8 (R70). -/
def bField (w : Word) : Byte := w.extractLsb' 8 8

/-- C, bits 7:0 (R70). -/
def cField (w : Word) : Byte := w.extractLsb' 0 8

/-- R74. -/
def decode (w : Word) : Except IllegalWord Instr :=
  if rsvField w ≠ 0#4 then .error .reservedField
  else
    match (opField w).toNat with
    | 0x1 => .ok .start
    | 0x2 => .ok .stop
    | 0x3 => .ok (.writeByte (cField w))
    | 0x4 => .ok .readAck
    | 0x5 => .ok .readNack
    | 0x6 => .ok .getStatus
    | 0x7 => .ok (.readReg (cField w))
    | 0x8 => .ok (.writeTxn (aField w) (bField w) (cField w))
    | 0x9 => .ok (.readTxn (aField w) (bField w))
    | 0xA => .ok .fsmEvent
    | _ => .error .opcode

/-- The word with the given fields and RSV = 0 (R70). -/
def wordOfFields (op : BitVec 4) (a b c : Byte) : Word := op ++ 0#4 ++ a ++ b ++ c

/-- The word of a command: "Unused fields assemble as 0" (R82), opcodes of R72. -/
def encode : Instr → Word
  | .start => wordOfFields 0x1 0 0 0
  | .stop => wordOfFields 0x2 0 0 0
  | .writeByte c => wordOfFields 0x3 0 0 c
  | .readAck => wordOfFields 0x4 0 0 0
  | .readNack => wordOfFields 0x5 0 0 0
  | .getStatus => wordOfFields 0x6 0 0 0
  | .readReg off => wordOfFields 0x7 0 0 off
  | .writeTxn dev reg data => wordOfFields 0x8 dev reg data
  | .readTxn dev reg => wordOfFields 0x9 dev reg 0
  | .fsmEvent => wordOfFields 0xA 0 0 0

/-- The bits of a word that its command reads: OP and RSV, and the operand fields in use (R71, R72). -/
def usedBits : Instr → Word
  | .start | .stop | .readAck | .readNack | .getStatus | .fsmEvent => 0xFF000000
  | .writeByte _ | .readReg _ => 0xFF0000FF
  | .writeTxn _ _ _ => 0xFFFFFFFF
  | .readTxn _ _ => 0xFFFFFF00

/-- The command word whose low `nbits` bits are those of `w` and whose other bits are 0. -/
def tableWord (nbits w : Nat) : Word := BitVec.ofNat 32 (w % 2 ^ nbits)

/-- What the decoder reads from an instruction given as the opcode table numbers its bits. -/
def decodeTableWord (nbits w : Nat) : Option Instr :=
  match decode (tableWord nbits w) with
  | .ok i => some i
  | .error _ => none

/-- The command a well-formed assembly line stands for, the pseudo-instructions expanded (R82, R83); `none` is
the assembly error of an operand outside 0 to 255. -/
def AsmLine.command (l : AsmLine) : Option Instr :=
  if l.wf then
    some (match l with
      | .start | .restart => .start
      | .stop => .stop
      | .writeByte c => .writeByte (BitVec.ofNat 8 c)
      | .readAck => .readAck
      | .readNack => .readNack
      | .getStatus => .getStatus
      | .readReg off => .readReg (BitVec.ofNat 8 off)
      | .getLast => .readReg 0x04
      | .getStep => .readReg 0x03
      | .writeTxn dev reg data => .writeTxn (BitVec.ofNat 8 dev) (BitVec.ofNat 8 reg) (BitVec.ofNat 8 data)
      | .readTxn dev reg => .readTxn (BitVec.ofNat 8 dev) (BitVec.ofNat 8 reg)
      | .fsmEvent => .fsmEvent)
  else none

end Sys2Proof
end

