-- ==== Sys2Proof/Machine/State.lean ====
section
/-! DEFINITION. The state of the block (R20 to R46) as plain data, the inputs and outputs the environment shares
with it, the reset state (R211), and the reasons a step can stop. -/

namespace Sys2Proof.Machine

/-- A bus operation (R37, R90). ENG.PEND is an `Option` of it: NONE is `none`. -/
inductive BusOp where
  | start
  | tx
  | rxAck
  | rxNack
  | stop
  deriving DecidableEq, Repr

/-- One phase of a program of the sequencer (R126, R127). -/
inductive Phase where
  | start
  | tx (b : Byte)
  | rxAck
  | rxNack
  | stop
  deriving DecidableEq, Repr

/-- One event of the bus trace (R43). -/
inductive BusEvent where
  | start
  | restart
  | addr (b : Byte) (a : Ack)
  | tx (b : Byte) (a : Ack)
  | rx (b : Byte) (a : Ack)
  | stop
  | busError
  deriving DecidableEq, Repr

/-- A command that holds its issuer (R95): the values SEQ.CMD takes. -/
inductive BlockCmd where
  | start
  | writeByte (c : Byte)
  | readAck
  | readNack
  | writeTxn (dev reg data : Byte)
  | readTxn (dev reg : Byte)
  deriving DecidableEq, Repr

/-- What SEQ holds in RUN (R42). -/
structure Run where
  owner : Ctx
  cmd : BlockCmd
  prog : List Phase
  /-- 1-based -/
  idx : Nat
  waiting : Bool
  polls : Nat
  byte : Byte
  deriving DecidableEq, Repr

/-- SEQ (R42). -/
inductive Seq where
  | idle
  | run (r : Run)
  deriving DecidableEq, Repr

/-- The response a command retires with (R81); `nothing` is the spec's NONE. -/
inductive Response where
  | nothing
  | byte (v : Byte)
  | result (v : Word)
  | timeout
  deriving DecidableEq, Repr

/-- The reasons of `raise Fault` (R186). -/
inductive FaultReason where
  | illegalCommand
  | concurrentPaths
  | triggerWhileBusy
  | protocolViolation
  deriving DecidableEq, Repr

/-- The state. The fields from `cfg` to `trace` are the spec's; the rest are the model's own (entries 3 to 7, 10). -/
structure State where
  /-- the parameters of R8; no step changes them (entry 1) -/
  cfg : Config
  /-- CTRL.INT, the completion flag and IRQ (R23, R199) -/
  ctrlInt : Bool
  /-- CTRL.EA (R24) -/
  ctrlEa : Bool
  /-- CTRL.STA (R25) -/
  ctrlSta : Bool
  /-- CTRL.EN (R25) -/
  ctrlEn : Bool
  /-- DATA (R27) -/
  data : Byte
  /-- STATUS.CODE (R29) -/
  code : BitVec 5
  /-- STEP (R31) -/
  stepCtr : Byte
  /-- LAST (R34) -/
  last : Byte
  /-- RESULT (R35) -/
  result : Word
  /-- FAULT (R36) -/
  fault : Byte
  /-- ENG.PEND (R37) -/
  pend : Option BusOp
  /-- ENG.OWNED (R38) -/
  owned : Bool
  /-- ENG.AFTER_START (R39) -/
  afterStart : Bool
  /-- ENG.START_LATCHED (R40) -/
  startLatched : Bool
  /-- FSM.CAP (R41) -/
  cap : Bool
  /-- SEQ (R42) -/
  seq : Seq
  /-- TRACE, oldest event first (R43) -/
  trace : List BusEvent
  /-- the words MAIN has still to issue, next first (R209; entry 5) -/
  mainPort : List Word
  /-- the words HANDLER has still to issue, next first (R209; entry 5) -/
  handlerPort : List Word
  /-- the moves still to come, next first (R12; entry 3) -/
  sched : List Move
  /-- how many free moves were taken (entry 3) -/
  moves : Nat
  /-- how many bytes were drawn (R16; entry 10) -/
  draws : Nat
  /-- the context whose word is at the command port (R91; entry 6) -/
  issuer : Ctx
  /-- every response given so far, oldest first (R81; entry 7) -/
  responses : List (Ctx × Response)
  deriving DecidableEq, Repr

/-- The reset state of R211 under the configuration `c`. -/
def State.resetOf (c : Config) : State where
  cfg := c
  ctrlInt := false
  ctrlEa := false
  ctrlSta := false
  ctrlEn := false
  data := c.dataReset
  code := c.statusCodes.noInfo.extractLsb' 3 5
  stepCtr := 0
  last := 0
  result := 0
  fault := 0
  pend := none
  owned := false
  afterStart := false
  startLatched := false
  cap := false
  seq := .idle
  trace := []
  mainPort := []
  handlerPort := []
  sched := []
  moves := 0
  draws := 0
  issuer := .main
  responses := []

/-- The machine right after reset, in the default configuration (R8, R211). -/
def State.reset : State := State.resetOf Config.default

/-- Why a step stops the machine. -/
inductive Fault where
  /-- FAULT holds the nonzero `code`: "no agent has a step" (R188). Raised by `step` and by `exec` in such a state
  and nowhere else. Safe: the spec gives the faulted block no further behaviour (entry 8). -/
  | blockFaulted (code : Byte)
  deriving DecidableEq, Repr

/-- Why an instruction has no meaning. -/
inductive Refusal where
  /-- The instruction's arm of `exec` has no meaning yet. Raised by no arm: every command has its meaning. Safe. -/
  | notModelled (mnemonic : String)
  deriving DecidableEq, Repr

end Sys2Proof.Machine
end

