-- ==== Sys2Proof/Machine/Flags.lean ====
section
/-! DEFINITION. Every flag and code computation: the control images and CTRL as read (R22, R77), IRQ (R199), the
status decoder (R170 to R183), the check of a phase and its failure kind, and the layout of RESULT (R35). -/

namespace Sys2Proof.Machine

/-- The control image that triggers an operation (R77). -/
def image : BusOp → Byte
  | .start => 0xA4
  | .stop => 0x94
  | .tx => 0xC4
  | .rxAck => 0xC4
  | .rxNack => 0x84

/-- CTRL.STO "reads 1 exactly while ENG.PEND = STOP" (R26). -/
def ctrlSto (s : State) : Bool := decide (s.pend = some .stop)

/-- CTRL as read: `{INT, EA, STA, STO, 0, EN, 0, 0}` (R22). -/
def ctrlByte (s : State) : Byte :=
  BitVec.ofBool s.ctrlInt ++ BitVec.ofBool s.ctrlEa ++ BitVec.ofBool s.ctrlSta ++ BitVec.ofBool (ctrlSto s) ++ 0#1 ++
    BitVec.ofBool s.ctrlEn ++ 0#2

/-- The interrupt output, "equal to CTRL.INT at every step" (R199). -/
def irq (s : State) : Bool := s.ctrlInt

/-- STATUS raw: `{CODE, PS}` (R28, R30). -/
def statusRaw (s : State) : Byte := s.code ++ s.cfg.psBits

/-- `statusValue() = STATUS & 0xF8 = {STATUS.CODE, 0b000}` (R171). -/
def statusValue (s : State) : Byte := s.code ++ 0#3

/-- The five bits of a status code that STATUS.CODE holds (R29). -/
def codeBits (c : Config) (n : StatusName) : BitVec 5 := (c.statusCodes.value n).extractLsb' 3 5

/-- The name of a masked value, `none` for UNKNOWN (R172). -/
def classify (t : StatusCodes) (v : Byte) : Option StatusName := StatusName.all.find? fun n => t.value n == v

/-- The code of a completed start (R174). -/
def startCode (owned : Bool) : StatusName := if owned then .repStartSent else .startSent

/-- The code of a completed address phase; `d` is bit 0 of the byte on the wire (R175). -/
def addrCode (d : Bool) (a : Ack) : StatusName :=
  match d, a with
  | false, .ack => .slaWAck
  | false, .nack => .slaWNack
  | true, .ack => .slaRAck
  | true, .nack => .slaRNack

/-- The code of a completed transmit that is not an address phase (R176). -/
def txCode : Ack → StatusName
  | .ack => .dataTxAck
  | .nack => .dataTxNack

/-- The code of a completed receive, by the bit the controller returned (R177). -/
def rxCode : Ack → StatusName
  | .ack => .dataRxAck
  | .nack => .dataRxNack

/-- The code phase `p` of a transaction expects: the last column of R126 and R127 (R180). -/
def expected : BlockCmd → Nat → Option StatusName
  | .writeTxn _ _ _, p =>
    match p with
    | 1 => some .startSent
    | 2 => some .slaWAck
    | 3 => some .dataTxAck
    | 4 => some .dataTxAck
    | _ => none
  | .readTxn _ _, p =>
    match p with
    | 1 => some .startSent
    | 2 => some .slaWAck
    | 3 => some .dataTxAck
    | 4 => some .repStartSent
    | 5 => some .slaRAck
    | 6 => some .dataRxAck
    | 7 => some .dataRxAck
    | 8 => some .dataRxNack
    | _ => none
  | .start, _ | .writeByte _, _ | .readAck, _ | .readNack, _ => none

/-- `check(cmd, p, v)` (R181). -/
def check (t : StatusCodes) (cmd : BlockCmd) (p : Nat) (v : Byte) : Bool :=
  match expected cmd p with
  | none => true
  | some n => v == t.value n

/-- RESULT.KIND (R35). -/
inductive ResultKind where
  | none
  | ok
  | failNack
  | failUnexpected
  | timeout
  deriving DecidableEq, Repr

/-- The three bits of RESULT.KIND (R35). -/
def kindBits : ResultKind → BitVec 3
  | .none => 0
  | .ok => 1
  | .failNack => 2
  | .failUnexpected => 3
  | .timeout => 4

/-- `failKind(v)` (R182). -/
def failKind (t : StatusCodes) (v : Byte) : ResultKind :=
  match classify t v with
  | some .slaWNack | some .slaRNack | some .dataTxNack => .failNack
  | _ => .failUnexpected

/-- RESULT from its fields: bits 31:23 zero, KIND 22:20, PHASE 19:16, CODE 15:8, BYTE 7:0 (R35). -/
def resultWord (kind : ResultKind) (phase : Nat) (code byte : Byte) : Word :=
  0#9 ++ kindBits kind ++ BitVec.ofNat 4 phase ++ code ++ byte

end Sys2Proof.Machine
end

