-- ==== Sys2Proof/Machine/Operands.lean ====
section
/-! DEFINITION. What the operands of a command become: the address byte of an address phase (R76) and the fixed
list of phases of a blocking command (R96 to R100, R126, R127). -/

namespace Sys2Proof.Machine

/-- The direction of an address phase (R76). -/
inductive Dir where
  | write
  | read
  deriving DecidableEq, Repr

/-- The direction bit: 1 for a read (R76). -/
def dirBit : Dir → Byte
  | .write => 0
  | .read => 1

/-- `addrByte(dev, rw)` (R76). -/
def addrByte (m : AddrMode) (dev : Byte) (d : Dir) : Byte :=
  match m with
  | .raw => dev
  | .shifted => ((dev &&& 0x7F) <<< 1) ||| dirBit d

/-- SEQ.PROG of a blocking command: the single phase of a primitive, or the program of R126 or R127. A WRITE_BYTE
sends its operand unmodified whatever ADDR_MODE is (R98). -/
def program (c : Config) : BlockCmd → List Phase
  | .start => [.start]
  | .writeByte b => [.tx b]
  | .readAck => [.rxAck]
  | .readNack => [.rxNack]
  | .writeTxn dev reg data => [.start, .tx (addrByte c.addrMode dev .write), .tx reg, .tx data, .stop]
  | .readTxn dev reg =>
    [.start, .tx (addrByte c.addrMode dev .write), .tx reg, .start, .tx (addrByte c.addrMode dev .read), .rxAck, .rxAck,
     .rxNack, .stop]

end Sys2Proof.Machine
end

