-- ==== Sys2Proof/Machine/Ops.lean ====
section
/-! DEFINITION. The named operations over the state: raising a fault (R187, R189), the trigger and its legality
(R92, R93), responses (R81), the register map (R52), the contexts and their ports (R91, R196), the checks of the
issue step (R91), and taking the next move (R12). -/

namespace Sys2Proof.Machine

/-- The code `raise Fault` writes for a reason (R186). -/
def faultCode : FaultReason → Byte
  | .illegalCommand => 1
  | .concurrentPaths => 2
  | .triggerWhileBusy => 3
  | .protocolViolation => 4

/-- Taking a fault, the block's only exception: FAULT gets the reason's code "and the step makes no other change"
(R187, R189). There is no return from it (R203): "nothing but reset clears FAULT" (R188). -/
def raiseFault (r : FaultReason) (s : State) : State := { s with fault := faultCode r }

/-- The end of a step that began in `s`: its next state, or, where a check of it failed, `s` with the fault raised
and every write the step would have made discarded (R189; entry 9). -/
def conclude (s : State) : Except FaultReason State → Host.Outcome State Fault Refusal
  | .ok t => .next t
  | .error r => .next (raiseFault r s)

/-- `respond(r)` to context `c` (R16, R81). -/
def respond (c : Ctx) (r : Response) (s : State) : State := { s with responses := s.responses ++ [(c, r)] }

/-- `emit(e)` (R16). -/
def emit (e : BusEvent) (s : State) : State := { s with trace := s.trace ++ [e] }

/-- `STATUS.CODE <- STATUS_CODES[n][7:3]` (R29). -/
def setCode (n : StatusName) (s : State) : State := { s with code := codeBits s.cfg n }

/-- `checkTrigger(op)` (R93): the fault it raises, if any. -/
def checkTrigger (op : BusOp) (s : State) : Option FaultReason :=
  match s.pend with
  | some p =>
    if op = .start ∧ p = .stop ∧ s.startLatched = false then none else some .triggerWhileBusy
  | none =>
    if op ≠ .start ∧ s.owned = false then some .protocolViolation
    else if (op = .rxAck ∨ op = .rxNack) ∧ s.afterStart = true then some .protocolViolation
    else none

/-- A start triggered while a stop is in flight is latched (R92). -/
def latches (op : BusOp) (s : State) : Bool := decide (op = .start ∧ s.pend = some .stop)

/-- The writes of a legal trigger (R92): EA, STA and EN from the image, INT cleared, the operation in flight or
its start latched. -/
def launch (op : BusOp) (s : State) : State :=
  { s with
    ctrlEa := (image op).getLsbD 6
    ctrlSta := (image op).getLsbD 5
    ctrlEn := (image op).getLsbD 2
    ctrlInt := false
    startLatched := if latches op s then true else s.startLatched
    pend := if latches op s then s.pend else some op }

/-- `trigger(op)` (R92). -/
def trigger (op : BusOp) (s : State) : Except FaultReason State :=
  match checkTrigger op s with
  | some r => .error r
  | none => .ok (launch op s)

/-- `checkTrigger(TX); DATA <- b; trigger(TX)` (R98, R130, R154). -/
def sendByte (b : Byte) (s : State) : Except FaultReason State :=
  match checkTrigger .tx s with
  | some r => .error r
  | none => trigger .tx { s with data := b }

/-- `regmap(off)` (R52): offsets 0x08 to 0xFF read 0x00. -/
def regmap (off : Byte) (s : State) : Byte :=
  match off.toNat with
  | 0 => ctrlByte s
  | 1 => statusRaw s
  | 2 => s.data
  | 3 => s.stepCtr
  | 4 => s.last
  | 5 => s.result.extractLsb' 0 8
  | 6 => s.result.extractLsb' 8 8
  | 7 => s.result.extractLsb' 16 8
  | _ => 0

/-- How a command uses the block's two paths: what the issue step checks of it (R91). -/
inductive PathUse where
  /-- GET_STATUS and READ_REG: exempt -/
  | pureRead
  /-- FSM_EVENT -/
  | event
  /-- every other command -/
  | blocking
  deriving DecidableEq, Repr

/-- STEP is inside a transaction of the event-driven machine: `1 <= STEP <= 8` (R91). -/
def eventInside (s : State) : Bool := decide (1 ≤ s.stepCtr.toNat ∧ s.stepCtr.toNat ≤ 8)

/-- The CONCURRENT_PATHS checks of the issue step, in the order of R91. -/
def pathCheck (u : PathUse) (s : State) : Option FaultReason :=
  match u with
  | .pureRead => none
  | .event => if s.seq = .idle then none else some .concurrentPaths
  | .blocking =>
    if s.seq = .idle then (if eventInside s then some .concurrentPaths else none) else some .concurrentPaths

/-- The issue step of a decoded command (R91): no step in a faulted block, then the path checks, then the rule of
the command. -/
def issue (u : PathUse) (rule : State → Except FaultReason State) (s : State) : Host.Outcome State Fault Refusal :=
  if s.fault ≠ 0 then .fault (.blockFaulted s.fault)
  else
    match pathCheck u s with
    | some r => .next (raiseFault r s)
    | none => conclude s (rule s)

/-- The context has a command outstanding: a blocking command of it runs (R196). -/
def outstanding (c : Ctx) (s : State) : Bool :=
  match s.seq with
  | .idle => false
  | .run r => decide (r.owner = c)

/-- The words context `c` has still to issue. -/
def port (c : Ctx) (s : State) : List Word :=
  match c with
  | .main => s.mainPort
  | .handler => s.handlerPort

/-- `s` with the words context `c` has still to issue replaced. -/
def setPort (c : Ctx) (ws : List Word) (s : State) : State :=
  match c with
  | .main => { s with mainPort := ws }
  | .handler => { s with handlerPort := ws }

/-- `s` with the word at the head of context `c`'s port taken, and `c` its issuer. -/
def atPort (c : Ctx) (ws : List Word) (s : State) : State := { setPort c ws s with issuer := c }

/-- The next move: the first listed one, or a free one where none is listed (R12; entry 3). -/
def takeMove (s : State) : Move × State :=
  match s.sched with
  | m :: ms => (m, { s with sched := ms })
  | [] => (Config.freeMove s.moves, { s with moves := s.moves + 1 })

/-- A context with no command outstanding: MAIN, unless MAIN's command runs. -/
def freeContext (s : State) : Ctx := if outstanding .main s then .handler else .main

/-- `s` with the word `w` next at the port of a context that may issue, and that context next to move. -/
def placeWord (w : Word) (s : State) : State :=
  let c := freeContext s
  let t := setPort c (w :: port c s) s
  { t with sched := .context c :: s.sched }

end Sys2Proof.Machine
end

