-- ==== Sys2Proof/Machine/EventFsm.lean ====
section
/-! DEFINITION. The event-driven machine: one FSM_EVENT is one transition (R151 to R163). -/

namespace Sys2Proof.Machine

/-- `act(s)` for a state 0 to 8 of the table (R152 to R161); it checks no status (R163). -/
def act (n : Nat) (s : State) : Except FaultReason State :=
  match n with
  | 0 => trigger .start s
  | 1 => sendByte (addrByte s.cfg.addrMode s.cfg.fsmDev .write) s
  | 2 => sendByte s.cfg.fsmReg s
  | 3 => trigger .start s
  | 4 => sendByte (addrByte s.cfg.addrMode s.cfg.fsmDev .read) s
  | 5 => trigger .rxAck s
  | 6 => trigger .rxAck s
  | 7 => (trigger .rxNack s).map fun t => { t with cap := true }
  | 8 => trigger .stop s
  | _ => .ok s

/-- STEP gets `v` and the event responds NONE in the same step (R151). -/
def finishEvent (v : Byte) (s : State) : State := respond s.issuer .nothing { s with stepCtr := v }

/-- The rule of FSM_EVENT: the action of STEP's value and its increment, or the default branch (R151, R162). -/
def eventRule (s : State) : Except FaultReason State :=
  if s.stepCtr.toNat ≤ 8 then (act s.stepCtr.toNat s).map (finishEvent (s.stepCtr + 1))
  else .ok (finishEvent 0 s)

/-- FSM_EVENT (R151). -/
def execFsmEvent (s : State) : Host.Outcome State Fault Refusal := issue .event eventRule s

end Sys2Proof.Machine
end

