-- ==== Sys2Proof/Machine/Sequencer.lean ====
section
/-! DEFINITION. The blocking path (R95, R129 to R137): issuing a phase, awaiting it, completing it, checking it,
aborting, timing out, recording the third byte and retiring. `r` is what SEQ holds while the command runs. -/

namespace Sys2Proof.Machine

/-- The first writes of `await()` (R95). -/
def await (r : Run) (s : State) : State := { s with seq := .run { r with waiting := true, polls := 0 } }

/-- A blocking primitive retires with the response `x` (R96 to R100). -/
def retirePrimitive (r : Run) (x : Response) (s : State) : State := respond r.owner x { s with seq := .idle }

/-- A transaction ends: RESULT gets `v`, SEQ is idle, and the command responds with RESULT (R133 to R136). -/
def finishTxn (r : Run) (v : Word) (s : State) : State :=
  respond r.owner (.result v) { s with result := v, seq := .idle }

/-- The bytes `draw()` gives the inert WRITE_TXN (R135): CODE first, then BYTE. -/
def drawnResult (s : State) : Word := resultWord .ok 0 (Config.freeByte s.draws) (Config.freeByte (s.draws + 1))

/-- Retiring in the step that triggers the final stop (R135, R136). A primitive's program has no stop phase: that
arm only makes the function total (entry 12). -/
def retireAtStop (r : Run) (s : State) : State :=
  match r.cmd with
  | .writeTxn _ _ _ =>
    match s.cfg.checkMode with
    | .live => finishTxn r (resultWord .ok 0 0 0) s
    | .inert => finishTxn r (drawnResult s) { s with draws := s.draws + 2 }
  | .readTxn _ _ => finishTxn r (resultWord .ok 0 0 r.byte) s
  | .start | .writeByte _ | .readAck | .readNack => retirePrimitive r .nothing s

/-- `issuePhase(p)` for `p = SEQ.IDX` (R130). Where the program has no such phase no rule gives a step: nothing
changes (entry 12). -/
def issuePhase (r : Run) (s : State) : Except FaultReason State :=
  match r.prog[r.idx - 1]? with
  | some .start => (trigger .start s).map (await r)
  | some (.tx b) => (sendByte b s).map (await r)
  | some .rxAck => (trigger .rxAck s).map (await r)
  | some .rxNack => (trigger .rxNack s).map (await r)
  | some .stop => (trigger .stop s).map (retireAtStop r)
  | none => .ok s

/-- What SEQ holds when a blocking command is issued by `c` (R42, R129). -/
def newRun (c : Ctx) (cmd : BlockCmd) (s : State) : Run where
  owner := c
  cmd := cmd
  prog := program s.cfg cmd
  idx := 1
  waiting := false
  polls := 0
  byte := Config.unsetSeqByte

/-- The rule of a blocking command in its issue step: `SEQ <- RUN(...)` and the first phase (R96 to R100, R129). -/
def beginCommand (cmd : BlockCmd) (s : State) : Except FaultReason State := issuePhase (newRun s.issuer cmd s) s

/-- `abort(p, code)` (R133): a stop where the bus is held, not awaited, and the failure in RESULT. -/
def abortTxn (r : Run) (v : Byte) (s : State) : Except FaultReason State :=
  let finish := finishTxn r (resultWord (failKind s.cfg.statusCodes v) r.idx v 0)
  if s.owned then (trigger .stop s).map finish else .ok (finish s)

/-- This phase's completion records the third byte (R137). -/
def recordsByte (r : Run) : Bool :=
  match r.cmd with
  | .readTxn _ _ => decide (r.idx = 8)
  | .start | .writeByte _ | .readAck | .readNack | .writeTxn _ _ _ => false

/-- What SEQ holds for the phase after `r`'s: the wait ended (R95), the third byte recorded where it is due (R137),
then `SEQ.IDX <- p + 1` (R131). -/
def nextPhase (r : Run) (s : State) : Run :=
  { r with idx := r.idx + 1, waiting := false, byte := if recordsByte r then s.data else r.byte }

/-- LAST as R137 leaves it. -/
def recordLast (r : Run) (s : State) : State := { s with last := if recordsByte r then s.data else s.last }

/-- CHECK_MODE is LIVE and the phase's status is not the expected one (R131). -/
def checkFails (r : Run) (s : State) : Bool :=
  match s.cfg.checkMode with
  | .inert => false
  | .live => !check s.cfg.statusCodes r.cmd r.idx (statusValue s)

/-- `completePhase(p)` (R131). -/
def completePhase (r : Run) (s : State) : Except FaultReason State :=
  if checkFails r s then abortTxn r (statusValue s) s else issuePhase (nextPhase r s) (recordLast r s)

/-- The observing step of `await()`, with the continuation of the command (R95 to R100, R131). -/
def observe (r : Run) (s : State) : Except FaultReason State :=
  match r.cmd with
  | .start | .writeByte _ => .ok (retirePrimitive r .nothing s)
  | .readAck | .readNack => .ok (retirePrimitive r (.byte s.data) s)
  | .writeTxn _ _ _ | .readTxn _ _ => completePhase r s

/-- The wait ends in TIMEOUT (R95, R96 to R100, R134): ENG keeps its operation in flight. -/
def timeOut (r : Run) (s : State) : State :=
  match r.cmd with
  | .writeTxn _ _ _ | .readTxn _ _ => finishTxn r (resultWord .timeout r.idx 0 0) s
  | .start | .writeByte _ | .readAck | .readNack => retirePrimitive r .timeout s

/-- A poll that saw INT = 0 (R95): under WAIT_BOUND = NONE the issuer has no step. -/
def poll (r : Run) (s : State) : State :=
  match s.cfg.waitBound with
  | none => s
  | some n => if r.polls + 1 = n then timeOut r s else { s with seq := .run { r with polls := r.polls + 1 } }

/-- The step of a context whose blocking command runs (R95). Only a wait has a step (entry 12). -/
def continueCommand (r : Run) (s : State) : Except FaultReason State :=
  if r.waiting then (if s.ctrlInt then observe r s else .ok (poll r s)) else .ok s

end Sys2Proof.Machine
end

