-- ==== Sys2Proof/Machine/Primitive.lean ====
section
/-! DEFINITION. The seven commands of the bus primitive layer in their issue step (R96 to R102). -/

namespace Sys2Proof.Machine

/-- START (R96). -/
def execStart (s : State) : Host.Outcome State Fault Refusal := issue .blocking (beginCommand .start) s

/-- The rule of STOP: the trigger, and the response in the same step (R97). -/
def stopRule (s : State) : Except FaultReason State := (trigger .stop s).map (respond s.issuer .nothing)

/-- STOP (R97). -/
def execStop (s : State) : Host.Outcome State Fault Refusal := issue .blocking stopRule s

/-- WRITE_BYTE (R98). -/
def execWriteByte (c : Byte) (s : State) : Host.Outcome State Fault Refusal :=
  issue .blocking (beginCommand (.writeByte c)) s

/-- READ_ACK (R99). -/
def execReadAck (s : State) : Host.Outcome State Fault Refusal := issue .blocking (beginCommand .readAck) s

/-- READ_NACK (R100). -/
def execReadNack (s : State) : Host.Outcome State Fault Refusal := issue .blocking (beginCommand .readNack) s

/-- The rule of GET_STATUS: the masked status value, and nothing else (R101). -/
def statusRule (s : State) : Except FaultReason State := .ok (respond s.issuer (.byte (statusValue s)) s)

/-- GET_STATUS (R101). -/
def execGetStatus (s : State) : Host.Outcome State Fault Refusal := issue .pureRead statusRule s

/-- The rule of READ_REG: the byte of the register map at the offset, and nothing else (R53, R102). -/
def readRule (off : Byte) (s : State) : Except FaultReason State := .ok (respond s.issuer (.byte (regmap off s)) s)

/-- READ_REG (R102). -/
def execReadReg (off : Byte) (s : State) : Host.Outcome State Fault Refusal := issue .pureRead (readRule off) s

end Sys2Proof.Machine
end

