-- ==== Sys2Proof/Machine/Transaction.lean ====
section
/-! DEFINITION. The two transaction commands in their issue step (R138, R139); their further phases are
Sequencer.lean's. -/

namespace Sys2Proof.Machine

/-- WRITE_TXN (R138). -/
def execWriteTxn (dev reg data : Byte) (s : State) : Host.Outcome State Fault Refusal :=
  issue .blocking (beginCommand (.writeTxn dev reg data)) s

/-- READ_TXN (R139). -/
def execReadTxn (dev reg : Byte) (s : State) : Host.Outcome State Fault Refusal :=
  issue .blocking (beginCommand (.readTxn dev reg)) s

end Sys2Proof.Machine
end

