-- ==== Sys2Proof/Machine/Dispatch.lean ====
section
/-! DEFINITION. The issue step of a decoded command: one arm per command, each one direct call of its meaning. -/

namespace Sys2Proof.Machine

-- The command is issued by s.issuer, which has no command outstanding (R91, R196).
def exec (i : Instr) (s : State) : Host.Outcome State Fault Refusal :=
  match i with
  | .start => Sys2Proof.Machine.execStart s
  | .stop => Sys2Proof.Machine.execStop s
  | .writeByte c => Sys2Proof.Machine.execWriteByte c s
  | .readAck => Sys2Proof.Machine.execReadAck s
  | .readNack => Sys2Proof.Machine.execReadNack s
  | .getStatus => Sys2Proof.Machine.execGetStatus s
  | .readReg offset => Sys2Proof.Machine.execReadReg offset s
  | .writeTxn dev reg data => Sys2Proof.Machine.execWriteTxn dev reg data s
  | .readTxn dev reg => Sys2Proof.Machine.execReadTxn dev reg s
  | .fsmEvent => Sys2Proof.Machine.execFsmEvent s

end Sys2Proof.Machine
end

