-- ==== Sys2Proof/Machine/Engine.lean ====
section
/-! DEFINITION. ENGINE's step: the completion of the bus operation in flight with BUS's answer (R103 to R110). -/

namespace Sys2Proof.Machine

/-- The answers BUS may give to an operation (R110). -/
def admits (c : Config) (op : BusOp) (a : Answer) : Bool :=
  match op, a with
  | .start, .done => true
  | .tx, .acked _ => true
  | .rxAck, .byte _ => true
  | .rxNack, .byte _ => true
  | .stop, .done => true
  | .stop, .busError => false
  | _, .busError => c.admitBusError
  | _, _ => false

/-- `ENG.PEND <- NONE; CTRL.INT <- 1`, the end of R104 to R106 and R109. -/
def finishOp (s : State) : State := { s with pend := none, ctrlInt := true }

/-- Completion of START (R104). -/
def completeStart (s : State) : State :=
  finishOp
    { emit (if s.owned then .restart else .start) (setCode (startCode s.owned) s) with
      owned := true
      afterStart := true }

/-- Completion of TX with the peripheral's acknowledge `a` (R105). -/
def completeTx (a : Ack) (s : State) : State :=
  if s.afterStart then
    finishOp { emit (.addr s.data a) (setCode (addrCode (s.data.getLsbD 0) a) s) with afterStart := false }
  else finishOp (emit (.tx s.data a) (setCode (txCode a) s))

/-- `capture(v)` (R107). -/
def capture (v : Byte) (s : State) : State := if s.cap then { s with last := v, cap := false } else s

/-- Completion of RX_ACK (`a = ACK`) or RX_NACK (`a = NACK`) with the byte `v` (R106). -/
def completeRx (a : Ack) (v : Byte) (s : State) : State :=
  finishOp (capture v (emit (.rx v a) (setCode (rxCode a) { s with data := v })))

/-- Completion of STOP (R108): CTRL.INT is not changed, and a latched start begins. -/
def completeStop (s : State) : State :=
  { emit .stop (setCode .noInfo s) with
    owned := false
    afterStart := false
    startLatched := false
    pend := if s.startLatched then some .start else none }

/-- Completion with BUS_ERROR (R109). -/
def completeBusError (s : State) : State :=
  finishOp { emit .busError (setCode .busError s) with owned := false, afterStart := false, cap := false }

/-- `complete(op, ans)` for an answer the operation admits (R103). -/
def complete (op : BusOp) (a : Answer) (s : State) : State :=
  match a with
  | .busError => completeBusError s
  | .acked k => completeTx k s
  | .byte v => completeRx (if op = .rxAck then .ack else .nack) v s
  | .done => if op = .start then completeStart s else completeStop s

/-- ENGINE's move with BUS's answer `a`: the completion, where an operation is in flight and admits `a`; otherwise
ENGINE has no step and nothing changes (R103, R110; entry 14). -/
def engineStep (a : Answer) (s : State) : State :=
  match s.pend with
  | none => s
  | some op => if admits s.cfg op a then complete op a s else s

end Sys2Proof.Machine
end

