-- ==== Sys2Proof/Machine/Issue.lean ====
section
/-! DEFINITION. The step of each agent (R11): a context issues the next word of its port or continues its running
command (R91, R95, R196), and ENGINE completes the operation in flight (R103). -/

namespace Sys2Proof.Machine

/-- `issue(ctx, w)` up to the command's rule (R91): a word that decodes to no command raises ILLEGAL_COMMAND
(R190). `s` has the word taken from the port. -/
def issueWord (w : Word) (s : State) : Host.Outcome State Fault Refusal :=
  if s.fault ≠ 0 then .fault (.blockFaulted s.fault)
  else
    match decode w with
    | .error _ => .next (raiseFault .illegalCommand s)
    | .ok i => exec i s

/-- A context with no outstanding command issues its next word; with no word left it has no step. -/
def issueNext (c : Ctx) (s : State) : Host.Outcome State Fault Refusal :=
  match port c s with
  | [] => .next s
  | w :: ws => issueWord w (atPort c ws s)

/-- The step of context `c` (R95, R196). -/
def contextStep (c : Ctx) (s : State) : Host.Outcome State Fault Refusal :=
  match s.seq with
  | .idle => issueNext c s
  | .run r => if r.owner = c then conclude s (continueCommand r s) else issueNext c s

/-- The step of the agent the move names, from a state whose move is taken. -/
def agentStep (m : Move) (s : State) : Host.Outcome State Fault Refusal :=
  match m with
  | .context c => contextStep c s
  | .engine a => .next (engineStep a s)

end Sys2Proof.Machine
end

