-- ==== Sys2Proof/Machine/Step.lean ====
section
/-! DEFINITION. One step of the machine: the agent that moves next takes its atomic step (R12). A faulted block has
no step (R188). -/

namespace Sys2Proof.Machine

/-- One step. An agent that is chosen and has no enabled step leaves the block as it is (entry 4). -/
def step (s : State) : Host.Outcome State Fault Refusal :=
  if s.fault ≠ 0 then .fault (.blockFaulted s.fault)
  else agentStep (takeMove s).1 (takeMove s).2

/-- `s` with the command word given as the opcode table numbers its bits next at the port of a context that may
issue (MAIN, unless MAIN's command runs), and that context next to move (entry 5). -/
def State.withFetchWord (s : State) (nbits w : Nat) : State := placeWord (tableWord nbits w) s

end Sys2Proof.Machine
end

