-- ==== Sys2Proof/Machine/Assembler.lean ====
section
/-! DEFINITION. The assembler's text form (R82, R83): one line of characters to the command word it stands for.
White space is the space and the tab, mnemonics are in capitals, and a comma stands between operands (entry 18). -/

namespace Sys2Proof.Machine

/-- Why a line does not assemble (R82). -/
inductive AsmError where
  | unknownMnemonic
  | malformedOperands
  /-- an operand outside 0 to 255 -/
  | operandRange
  deriving DecidableEq, Repr

/-- The mnemonics of R82 and the pseudo-instructions of R83. -/
inductive Mnemonic where
  | start
  | stop
  | writeByte
  | readAck
  | readNack
  | getStatus
  | readReg
  | writeTxn
  | readTxn
  | fsmEvent
  | restart
  | getLast
  | getStep
  deriving DecidableEq, Repr

/-- How each mnemonic is written. -/
def mnemonicTable : List (List Char × Mnemonic) :=
  [(['S', 'T', 'A', 'R', 'T'], .start),
   (['S', 'T', 'O', 'P'], .stop),
   (['W', 'R', 'I', 'T', 'E', '_', 'B', 'Y', 'T', 'E'], .writeByte),
   (['R', 'E', 'A', 'D', '_', 'A', 'C', 'K'], .readAck),
   (['R', 'E', 'A', 'D', '_', 'N', 'A', 'C', 'K'], .readNack),
   (['G', 'E', 'T', '_', 'S', 'T', 'A', 'T', 'U', 'S'], .getStatus),
   (['R', 'E', 'A', 'D', '_', 'R', 'E', 'G'], .readReg),
   (['W', 'R', 'I', 'T', 'E', '_', 'T', 'X', 'N'], .writeTxn),
   (['R', 'E', 'A', 'D', '_', 'T', 'X', 'N'], .readTxn),
   (['F', 'S', 'M', '_', 'E', 'V', 'E', 'N', 'T'], .fsmEvent),
   (['R', 'E', 'S', 'T', 'A', 'R', 'T'], .restart),
   (['G', 'E', 'T', '_', 'L', 'A', 'S', 'T'], .getLast),
   (['G', 'E', 'T', '_', 'S', 'T', 'E', 'P'], .getStep)]

/-- "`; text` is a comment" (R82). -/
def withoutComment (l : List Char) : List Char := l.takeWhile fun ch => ch != ';'

/-- The token read so far, if it has a character. -/
def flushToken (cur : List Char) : List (List Char) := if cur = [] then [] else [cur]

/-- The tokens of a line: runs of characters between white space and commas, and each comma. -/
def tokens (cur : List Char) : List Char → List (List Char)
  | [] => flushToken cur
  | ch :: rest =>
    if ch = ' ' ∨ ch = '\t' then flushToken cur ++ tokens [] rest
    else if ch = ',' then flushToken cur ++ [','] :: tokens [] rest
    else tokens (cur ++ [ch]) rest

/-- The value of a digit in the given base. -/
def digitValue (base : Nat) (ch : Char) : Option Nat :=
  let n := ch.toNat
  let v := if 48 ≤ n ∧ n ≤ 57 then some (n - 48)
    else if 97 ≤ n ∧ n ≤ 102 then some (n - 87)
    else if 65 ≤ n ∧ n ≤ 70 then some (n - 55)
    else none
  v.filter fun d => decide (d < base)

/-- The number whose digits follow those already read as `acc`. -/
def digitsFrom (base acc : Nat) : List Char → Option Nat
  | [] => some acc
  | ch :: rest =>
    match digitValue base ch with
    | none => none
    | some d => digitsFrom base (acc * base + d) rest

/-- A number "written `0x..` or decimal" (R82). -/
def number : List Char → Option Nat
  | [] => none
  | ['0', 'x'] => none
  | '0' :: 'x' :: ds => digitsFrom 16 0 ds
  | ds => digitsFrom 10 0 ds

/-- The operands of a line, a comma between each two. -/
def operands : List (List Char) → Option (List Nat)
  | [] => some []
  | [t] => (number t).map fun n => [n]
  | [_, _] => none
  | t :: sep :: rest =>
    if sep = [','] then
      match number t, operands rest with
      | some n, some ns => some (n :: ns)
      | _, _ => none
    else none

/-- The line of a mnemonic and its operands (R82), `none` where their number is not the mnemonic's. -/
def asmLine : Mnemonic → List Nat → Option AsmLine
  | .start, [] => some .start
  | .stop, [] => some .stop
  | .writeByte, [c] => some (.writeByte c)
  | .readAck, [] => some .readAck
  | .readNack, [] => some .readNack
  | .getStatus, [] => some .getStatus
  | .readReg, [off] => some (.readReg off)
  | .writeTxn, [dev, reg, data] => some (.writeTxn dev reg data)
  | .readTxn, [dev, reg] => some (.readTxn dev reg)
  | .fsmEvent, [] => some .fsmEvent
  | .restart, [] => some .restart
  | .getLast, [] => some .getLast
  | .getStep, [] => some .getStep
  | _, _ => none

/-- One line of assembly: the word of its command, nothing for a line that holds only a comment or white space, or
an assembly error (R82). -/
def assemble (l : List Char) : Except AsmError (Option Word) :=
  match tokens [] (withoutComment l) with
  | [] => .ok none
  | m :: ops =>
    match mnemonicTable.lookup m with
    | none => .error .unknownMnemonic
    | some k =>
      match (operands ops).bind (asmLine k) with
      | none => .error .malformedOperands
      | some line =>
        match line.command with
        | none => .error .operandRange
        | some i => .ok (some (encode i))

end Sys2Proof.Machine
end

