-- ==== Sys2Proof/Safety.lean ====
section
/-! DEFINITION. What claims are stated in: how a run ends (R13), the launch premise (R216), paced events (R164), the
fairness assumption (R228), a legal bus trace (R18, R43), and the invariants of the block (R23 to R44). -/

namespace Sys2Proof.Safety

open Sys2Proof.Machine

/-- The launch premise `CleanLaunch` (R216). -/
structure CleanLaunch (s : State) : Prop where
  fault : s.fault = 0
  pend : s.pend = none
  owned : s.owned = false
  afterStart : s.afterStart = false
  startLatched : s.startLatched = false
  cap : s.cap = false
  seq : s.seq = .idle
  stepCtr : s.stepCtr = 0
  noneOutstanding : ∀ c, outstanding c s = false

/-- The wait of the running command `r` has a step (R95): to observe, where INT is 1, or to poll, where INT is 0 and the
wait is bounded. -/
def waitEnabled (r : Run) (s : State) : Bool := r.waiting && (s.ctrlInt || s.cfg.waitBound.isSome)

/-- Context `c` has an enabled continuation step (R95, R228): its blocking command runs, and the wait has a step. -/
def continuationEnabled (c : Ctx) (s : State) : Bool :=
  decide (s.fault = 0) &&
    (match s.seq with
     | .idle => false
     | .run r => decide (r.owner = c) && waitEnabled r s)

/-- Context `c` has an enabled step (R12, R95, R196): it may issue its next word, or the wait of its command may
observe or poll. -/
def contextEnabled (c : Ctx) (s : State) : Bool :=
  decide (s.fault = 0) &&
    (match s.seq with
     | .idle => !(port c s).isEmpty
     | .run r => if r.owner = c then waitEnabled r s else !(port c s).isEmpty)

/-- ENGINE has an enabled step if BUS gives the answer `a` (R103, R110). -/
def engineEnabled (a : Answer) (s : State) : Bool :=
  decide (s.fault = 0) &&
    (match s.pend with
     | none => false
     | some op => admits s.cfg op a)

/-- The move the step `n` steps on from `s` takes, whatever the steps do: listed, or free (R12, R110; entry 3). -/
def comingMove : Nat → State → Move
  | 0, s => (takeMove s).1
  | n + 1, s => comingMove n (takeMove s).2

/-- ENGINE has no enabled step: nothing is in flight, or BUS never answers the operation in flight (R103, R110), that is, no
move to come is an answer the operation admits (entries 3, 14). -/
def BusSilent (s : State) : Prop := ∀ n a, comingMove n s = .engine a → engineEnabled a s = false

/-- The run has ended: no agent, MAIN, HANDLER or ENGINE, has an enabled step (R13). -/
structure RunEnded (s : State) : Prop where
  contexts : ∀ c, contextEnabled c s = false
  engine : BusSilent s

/-- A faulted run: it ends with FAULT non-zero (R13, R188). -/
def FaultedEnd (s : State) : Prop := RunEnded s ∧ s.fault ≠ 0

/-- A hang (R13): the run ends with a command held on its wait, or with an operation BUS never answers. -/
def Hang (s : State) : Prop := RunEnded s ∧ s.fault = 0 ∧ (s.seq ≠ .idle ∨ s.pend ≠ none)

/-- A successful end: no fault, nothing in flight, no command held (R13). -/
def SuccessfulEnd (s : State) : Prop := RunEnded s ∧ s.fault = 0 ∧ s.seq = .idle ∧ s.pend = none

/-- An event delivered now is well-behaved (R164): no blocking command runs, and the operation the previous state 0
to 7 triggered has completed (DEDUCED, entry 20). -/
def PacedEvent (s : State) : Prop :=
  s.seq = .idle ∧ ((1 ≤ s.stepCtr.toNat ∧ s.stepCtr.toNat ≤ 8) → s.ctrlInt = true)

/-- A blocking-path command passes the checks of the issue step (R91): no fault, no blocking command running, STEP not
1 to 8. -/
abbrev CanIssue (s : State) : Prop := s.fault = 0 ∧ s.seq = .idle ∧ eventInside s = false

/-- An FSM_EVENT passes the checks of the issue step (R91). -/
abbrev CanEvent (s : State) : Prop := s.fault = 0 ∧ s.seq = .idle

/-- The command is exempt from CONCURRENT_PATHS (R91): GET_STATUS or READ_REG. -/
def isPureRead : Instr → Bool
  | .getStatus | .readReg _ => true
  | .start | .stop | .writeByte _ | .readAck | .readNack | .writeTxn _ _ _ | .readTxn _ _ | .fsmEvent => false

/-- The command belongs to the blocking path (R91): every one but GET_STATUS, READ_REG and FSM_EVENT. -/
def isBlockingPath : Instr → Bool
  | .start | .stop | .writeByte _ | .readAck | .readNack | .writeTxn _ _ _ | .readTxn _ _ => true
  | .getStatus | .readReg _ | .fsmEvent => false

/-- SEQ as the issue step of a blocking command by `c` leaves it: its program at phase 1, waiting, no poll counted (R95,
R129); SEQ.BYTE has no value yet (entry 11). -/
def firstWait (c : Ctx) (cmd : BlockCmd) (prog : List Phase) : Seq :=
  .run
    { owner := c
      cmd := cmd
      prog := prog
      idx := 1
      waiting := true
      polls := 0
      byte := Config.unsetSeqByte }

/-- The next move of `s` is the step of the context whose command `r` runs and waits; `u` is `s` with the move
taken. -/
abbrev WaitStep (s u : State) (r : Run) : Prop :=
  s.fault = 0 ∧ takeMove s = (.context r.owner, u) ∧ s.seq = .run r ∧ r.waiting = true

/-- The check of R131 lets the phase `r` waits on pass: no status is looked at (INERT), the phase expects no code, or
STATUS holds the code it expects (LIVE). -/
abbrev PhasePasses (r : Run) (s : State) : Prop :=
  s.cfg.checkMode = .inert ∨ expected r.cmd r.idx = none ∨
    ∃ n, expected r.cmd r.idx = some n ∧ statusRaw s &&& 0xF8 = s.cfg.statusCodes.value n

/-- The next move of `s` is ENGINE's, with BUS's answer `a`; `u` is `s` with the move taken. -/
abbrev EngineMove (s u : State) (a : Answer) : Prop := s.fault = 0 ∧ takeMove s = (.engine a, u)

/-- The states of a run, each step answering the next (R12). -/
def IsRun (run : Nat → State) : Prop := ∀ n, step (run n) = .next (run (n + 1))

/-- Weak fairness of ENGINE (R228): an operation in flight from `n` on that BUS answers (`answers m` at step `m`) is
completed eventually, that is, the trace grows. -/
def EngineFair (run : Nat → State) (answers : Nat → Bool) : Prop :=
  ∀ n, (∀ m, n ≤ m → (run m).pend ≠ none ∧ answers m = true) →
    ∃ m, n ≤ m ∧ (run m).trace.length < (run (m + 1)).trace.length

/-- Weak fairness of MAIN and HANDLER "on their enabled continuation steps" (R228): a context whose wait has a step from `n`
on, to observe or to poll a bounded wait, takes one. -/
def IssuerFair (run : Nat → State) : Prop :=
  ∀ c n, (∀ m, n ≤ m → continuationEnabled c (run m) = true) → ∃ m, n ≤ m ∧ (takeMove (run m)).1 = .context c

/-- Where a bus trace stands: not held, held with no byte sent since the last start, held after one. -/
inductive BusPhase where
  | free
  | started
  | addressed
  deriving DecidableEq, Repr

/-- The events of R43 a legal trace may go on with, by where it stands: a first start on a free bus and a restart on
a held one (R174), an address byte as the first byte after either (R19, R105), other bytes and receives only after
it (R193), a stop only on a held bus (R193), and a bus error anywhere (R109). DEDUCED (entry 21). -/
def busStep : BusPhase → BusEvent → Option BusPhase
  | .free, .start => some .started
  | .started, .restart => some .started
  | .addressed, .restart => some .started
  | .started, .addr _ _ => some .addressed
  | .addressed, .tx _ _ => some .addressed
  | .addressed, .rx _ _ => some .addressed
  | .started, .stop => some .free
  | .addressed, .stop => some .free
  | _, .busError => some .free
  | _, _ => none

/-- Where a whole trace leaves a bus that was free before it; `none` where it is not legal. -/
def busAfter (t : List BusEvent) : Option BusPhase := t.foldlM busStep .free

/-- Where ENG.OWNED and ENG.AFTER_START say the bus stands (R38, R39). -/
def enginePhase (s : State) : BusPhase :=
  if s.owned then (if s.afterStart then .started else .addressed) else .free

/-- The trace is a legal one and leaves the bus where ENG says it stands. -/
def TraceLegal (s : State) : Prop := busAfter s.trace = some (enginePhase s)

/-- The relations between the flag INT and the fields of ENG and FSM.CAP (R23, R37 to R41). -/
structure EngineInv (s : State) : Prop where
  /-- INT is 0 while an operation is in flight (R23) -/
  intClear : s.pend ≠ none → s.ctrlInt = false
  /-- a start is latched only behind a stop (R40) -/
  latched : s.startLatched = true → s.pend = some .stop
  /-- a start completed since the last stop or bus error, so the bus is held (R38, R39) -/
  startedOwned : s.afterStart = true → s.owned = true
  /-- every operation but a start is in flight on a held bus only (R93) -/
  heldByOp : ∀ op, s.pend = some op → op ≠ .start → s.owned = true
  /-- a receive is in flight only after an address byte (R93) -/
  rxAddressed : s.pend = some .rxAck ∨ s.pend = some .rxNack → s.afterStart = false
  /-- the capture latch is set only while the receive of state 7 is in flight (R41) -/
  capArmed : s.cap = true → s.pend = some .rxNack

/-- "EN = 0 holds only from reset until the first trigger" (R25). -/
def EnableInv (s : State) : Prop :=
  s.ctrlEn = false →
    s.ctrlInt = false ∧ s.ctrlEa = false ∧ s.ctrlSta = false ∧ s.pend = none ∧ s.owned = false ∧ s.trace = []

/-- The operation a phase triggers (R130). -/
def phaseOp : Phase → BusOp
  | .start => .start
  | .tx _ => .tx
  | .rxAck => .rxAck
  | .rxNack => .rxNack
  | .stop => .stop

/-- A running command waits on the operation of a phase of its own program, not its stop: the operation is in flight
(with the phase's byte in DATA), or latched behind a stop, or has completed with INT = 1; and neither the
event-driven machine is inside a transaction nor has the wait reached its bound (R42, R91, R95, R130). -/
structure RunInv (s : State) (r : Run) : Prop where
  prog : r.prog = program s.cfg r.cmd
  idx : 1 ≤ r.idx
  waiting : r.waiting = true
  outside : eventInside s = false
  polls : ∀ n, s.cfg.waitBound = some n → r.polls < n
  phase : ∃ ph, r.prog[r.idx - 1]? = some ph ∧ ph ≠ .stop ∧
    (s.ctrlInt = true ∨ (s.pend = some (phaseOp ph) ∧ ∀ b, ph = .tx b → s.data = b) ∨
      (ph = .start ∧ s.pend = some .stop ∧ s.startLatched = true))

/-- Every running command meets `RunInv`. -/
def SeqInv (s : State) : Prop := ∀ r, s.seq = .run r → RunInv s r

/-- STATUS.CODE always holds a code of the table other than ARB_LOST (R29, R179). -/
def CodeInv (s : State) : Prop := ∃ n, n ≠ StatusName.arbLost ∧ s.code = codeBits s.cfg n

/-- RESULT bits 31:23 are 0 and KIND is at most 4 (R35). -/
def ResultInv (s : State) : Prop :=
  s.result.extractLsb' 23 9 = 0#9 ∧ (s.result.extractLsb' 20 3).toNat ≤ 4

/-- The reachable values of STEP and FAULT (R32, R36). -/
def CounterInv (s : State) : Prop := s.stepCtr.toNat ≤ 9 ∧ s.fault.toNat ≤ 4

/-- The registers and the hidden state of the block are those of `t` in `s`: only the inputs the environment holds
(ports, moves, issuer) may differ. -/
def SameBlock (s t : State) : Prop :=
  t = { s with
    mainPort := t.mainPort
    handlerPort := t.handlerPort
    sched := t.sched
    moves := t.moves
    issuer := t.issuer }

end Sys2Proof.Safety
end

