-- ==== Sys2Proof/Certificates/Slice0/Obligations.lean ====
section
/-! DEFINITION. The statements for the provers. A state `{ s with … }` on the right of `= .next` gives every register,
flag and hidden field after the step: a field it does not name is unchanged, so each such statement is its
instruction's result, its frame and its completion at once. -/

open Sys2Proof Sys2Proof.Machine Sys2Proof.Safety

-- ## Encoding (30_encoding.md)

/-- Decoding the word of a command gives it back, for every command and every value of its operands. -/
def Obligations.DecodeEncodeRoundTrip : Prop := ∀ i : Instr, decode (encode i) = .ok i

/-- A legal word is its command's word with any bits in the fields the command does not use, and those bits never
change the command (R71). -/
def Obligations.UnusedFieldsIgnored : Prop :=
  ∀ (w : Word) (i : Instr), decode w = .ok i →
    encode i = w &&& usedBits i ∧ ∀ v : Word, v &&& usedBits i = w &&& usedBits i → decode v = .ok i

/-- The illegal words are exactly those of R73. -/
def Obligations.IllegalWordsExactly : Prop :=
  ∀ w : Word, (∃ e, decode w = .error e) ↔ opField w = 0x0 ∨ 0xB ≤ (opField w).toNat ∨ rsvField w ≠ 0x0

/-- The example words of R84, assembled and decoded, and one word of every other command. -/
def Obligations.ExampleWordsDecode : Prop :=
  encode (.writeByte 0x50) = 0x30000050 ∧ encode (.writeTxn 0x50 0x01 0xAA) = 0x805001AA ∧
    encode (.readTxn 0x00 0x00) = 0x90000000 ∧ encode .fsmEvent = 0xA0000000 ∧ encode (.readReg 0x04) = 0x70000004 ∧
    decode 0x30000050 = .ok (.writeByte 0x50) ∧ decode 0x805001AA = .ok (.writeTxn 0x50 0x01 0xAA) ∧
    decode 0x90000000 = .ok (.readTxn 0x00 0x00) ∧ decode 0xA0000000 = .ok .fsmEvent ∧
    decode 0x70000004 = .ok (.readReg 0x04) ∧ decode 0x01000000 = .error .reservedField ∧
    opField 0x01000000 = 0x0 ∧ decode 0x11000000 = .error .reservedField ∧ decode 0x10000000 = .ok .start ∧
    decode 0x20000000 = .ok .stop ∧ decode 0x40000000 = .ok .readAck ∧ decode 0x50000000 = .ok .readNack ∧
    decode 0x60000000 = .ok .getStatus

/-- The pseudo-instructions assemble to the words of R83. -/
def Obligations.PseudoInstructionsExpand : Prop :=
  (AsmLine.restart.command.map encode) = some 0x10000000 ∧ (AsmLine.getLast.command.map encode) = some 0x70000004 ∧
    (AsmLine.getStep.command.map encode) = some 0x70000003

/-- The byte of an address phase (R76): the operand itself under RAW; its low seven bits above the direction bit under
SHIFTED. -/
def Obligations.AddressByteForm : Prop :=
  ∀ (dev : Byte) (d : Dir),
    addrByte .raw dev d = dev ∧
      (addrByte .shifted dev d).extractLsb' 1 7 = dev.extractLsb' 0 7 ∧
      (addrByte .shifted dev d).getLsbD 0 = decide (d = .read)

-- ## Reset (70_reset_and_hazards.md)

/-- The reset state of R211, in every configuration that meets R8 and R80. -/
def Obligations.ResetStateValues : Prop :=
  State.reset = State.resetOf Config.default ∧
    ∀ c : Config, c.wf = true →
      let s := State.resetOf c
      s.ctrlInt = false ∧ s.ctrlEa = false ∧ s.ctrlSta = false ∧ ctrlSto s = false ∧ s.ctrlEn = false ∧
        ctrlByte s = 0x00 ∧ s.data = c.dataReset ∧ s.code = c.statusCodes.noInfo.extractLsb' 3 5 ∧
        statusRaw s = (c.statusCodes.noInfo ||| c.psBits.setWidth 8) ∧ s.stepCtr = 0 ∧ s.last = 0x00 ∧
        s.result = 0x00000000 ∧ s.fault = 0 ∧ s.pend = none ∧ s.owned = false ∧ s.afterStart = false ∧
        s.startLatched = false ∧ s.cap = false ∧ s.seq = .idle ∧ s.trace = [] ∧ irq s = false ∧
        ∀ x, outstanding x s = false

/-- The reset state meets `CleanLaunch` (R216) and every invariant stated below. -/
def Obligations.ResetMeetsLaunchAndInvariants : Prop :=
  ∀ c : Config, c.wf = true →
    CleanLaunch (State.resetOf c) ∧ EngineInv (State.resetOf c) ∧ TraceLegal (State.resetOf c) ∧
      SeqInv (State.resetOf c) ∧ EnableInv (State.resetOf c) ∧ CodeInv (State.resetOf c) ∧
      ResultInv (State.resetOf c) ∧ CounterInv (State.resetOf c)

-- ## The step and the issue checks (R91, R185 to R194)

/-- A step in which a context with no command outstanding moves and its next word decodes runs exactly that command,
with the word taken from the port and the context its issuer (how words and moves are held: entries 3, 5, 6). -/
def Obligations.StepRunsDecodedCommand : Prop :=
  ∀ (s u : State) (c : Ctx) (w : Word) (ws : List Word) (i : Instr),
    s.fault = 0 → takeMove s = (.context c, u) → outstanding c s = false → port c s = w :: ws → decode w = .ok i →
    step s = exec i (atPort c ws u)

/-- A word placed where the next instruction is fetched is the one the very next step runs, on a state that differs
from `s` in the inputs alone (entry 5). -/
def Obligations.PlacedWordRunsNext : Prop :=
  ∀ (s : State) (w : Nat) (i : Instr), s.fault = 0 → decodeTableWord 32 w = some i →
    ∃ u, SameBlock s u ∧ outstanding u.issuer s = false ∧ step (s.withFetchWord 32 w) = exec i u

/-- Issuing a word that spells no command raises ILLEGAL_COMMAND, before any other check and from either context, and
changes nothing else of the block (R190). That the word and the move are used up is the model's choice (entry 9). -/
def Obligations.IllegalWordFaults : Prop :=
  ∀ (s u : State) (c : Ctx) (w : Word) (ws : List Word),
    s.fault = 0 → takeMove s = (.context c, u) → outstanding c s = false → port c s = w :: ws →
    (opField w = 0x0 ∨ 0xB ≤ (opField w).toNat ∨ rsvField w ≠ 0x0) →
    step s = .next { atPort c ws u with fault := 1 }

/-- A faulted block has no step and runs no command (R188). That `step` and `exec` then answer the fault
`blockFaulted` is the model's choice (entry 8). -/
def Obligations.FaultedBlockHasNoStep : Prop :=
  ∀ s : State, s.fault ≠ 0 →
    step s = .fault (.blockFaulted s.fault) ∧ ∀ i, exec i s = .fault (.blockFaulted s.fault)

/-- A step that raises a fault changes FAULT and nothing else of the block, and writes one of the codes 1 to 4 (R187,
R189). -/
def Obligations.FaultingStepChangesFaultAlone : Prop :=
  (∀ (i : Instr) (s t : State), exec i s = .next t → t.fault ≠ 0 →
      t = { s with fault := t.fault } ∧ t.fault.toNat ≤ 4) ∧
    ∀ s t : State, step s = .next t → t.fault ≠ 0 → SameBlock { s with fault := t.fault } t ∧ t.fault.toNat ≤ 4

/-- CONCURRENT_PATHS (R191): (a) any command but GET_STATUS and READ_REG while a blocking command runs, and (b) any
blocking-path command while STEP is 1 to 8; GET_STATUS and READ_REG never conflict. -/
def Obligations.ConcurrentPathsFault : Prop :=
  (∀ (i : Instr) (s : State) (r : Run), s.fault = 0 → s.seq = .run r → isPureRead i = false →
      exec i s = .next { s with fault := 2 }) ∧
    (∀ (i : Instr) (s : State), s.fault = 0 → 1 ≤ s.stepCtr.toNat → s.stepCtr.toNat ≤ 8 → isBlockingPath i = true →
      exec i s = .next { s with fault := 2 }) ∧
    ∀ (i : Instr) (s : State), s.fault = 0 → isPureRead i = true → ∃ t, exec i s = .next t ∧ t.fault = 0

/-- TRIGGER_WHILE_BUSY (R192): a command that triggers in its issue step while an operation is in flight, a running
transaction whose next phase or abort triggers then, and an event, but for a start while a stop is in flight and no start
is latched. -/
def Obligations.TriggerWhileBusyFaults : Prop :=
  ∀ (s : State) (p : BusOp), s.pend = some p →
    (CanIssue s → ∀ i ∈ [Instr.stop, .readAck, .readNack], exec i s = .next { s with fault := 3 }) ∧
    (CanIssue s → ∀ c, exec (.writeByte c) s = .next { s with fault := 3 }) ∧
    (CanIssue s → p ≠ .stop ∨ s.startLatched = true →
      exec .start s = .next { s with fault := 3 } ∧
        (∀ dev reg data, exec (.writeTxn dev reg data) s = .next { s with fault := 3 }) ∧
        ∀ dev reg, exec (.readTxn dev reg) s = .next { s with fault := 3 }) ∧
    (CanEvent s → s.stepCtr ∈ [1#8, 2#8, 4#8, 5#8, 6#8, 7#8, 8#8] → exec .fsmEvent s = .next { s with fault := 3 }) ∧
    (CanEvent s → s.stepCtr ∈ [0#8, 3#8] → p ≠ .stop ∨ s.startLatched = true →
      exec .fsmEvent s = .next { s with fault := 3 }) ∧
    ∀ (u : State) (r : Run), WaitStep s u r → s.ctrlInt = true →
      ((∃ d g x, r.cmd = .writeTxn d g x) ∨ ∃ d g, r.cmd = .readTxn d g) →
      (∀ ph, PhasePasses r s → r.prog[r.idx]? = some ph → ph ≠ .start ∨ p ≠ .stop ∨ s.startLatched = true →
        step s = .next { u with fault := 3 }) ∧
      (∀ n, s.cfg.checkMode = .live → expected r.cmd r.idx = some n →
        statusRaw s &&& 0xF8 ≠ s.cfg.statusCodes.value n → s.owned = true → step s = .next { u with fault := 3 })

/-- PROTOCOL_VIOLATION (R193), by a command in its issue step, an event, or the next phase of a running transaction (R138,
R198): (a) a byte operation or a stop on a bus not held; (b) a receive directly after a start. -/
def Obligations.ProtocolViolationFaults : Prop :=
  ∀ s : State, s.pend = none →
    (CanIssue s → s.owned = false →
      (∀ i ∈ [Instr.stop, .readAck, .readNack], exec i s = .next { s with fault := 4 }) ∧
        ∀ c, exec (.writeByte c) s = .next { s with fault := 4 }) ∧
    (CanIssue s → s.owned = true → s.afterStart = true →
      ∀ i ∈ [Instr.readAck, .readNack], exec i s = .next { s with fault := 4 }) ∧
    (CanEvent s → s.owned = false → s.stepCtr ∈ [1#8, 2#8, 4#8, 5#8, 6#8, 7#8, 8#8] →
      exec .fsmEvent s = .next { s with fault := 4 }) ∧
    (CanEvent s → s.owned = true → s.afterStart = true → s.stepCtr ∈ [5#8, 6#8, 7#8] →
      exec .fsmEvent s = .next { s with fault := 4 }) ∧
    ∀ (u : State) (r : Run) (ph : Phase), WaitStep s u r → s.ctrlInt = true →
      ((∃ d g x, r.cmd = .writeTxn d g x) ∨ ∃ d g, r.cmd = .readTxn d g) → PhasePasses r s →
      r.prog[r.idx]? = some ph →
      (s.owned = false → ph ≠ .start → step s = .next { u with fault := 4 }) ∧
      (s.owned = true → s.afterStart = true → ph = .rxAck ∨ ph = .rxNack → step s = .next { u with fault := 4 })

-- ## The primitive commands (R96 to R102)

/-- START with nothing in flight triggers a start, whether or not the bus is held, and waits (R92, R95, R96). -/
def Obligations.StartTriggersAndWaits : Prop :=
  ∀ s : State, CanIssue s → s.pend = none →
    exec .start s = .next { s with
      ctrlInt := false, ctrlEa := false, ctrlSta := true, ctrlEn := true, pend := some .start
      seq := firstWait s.issuer .start [.start] }

/-- A start while a stop is in flight and no start is latched is latched, and STO still reads 1: START, WRITE_TXN and
READ_TXN wait for it, FSM_EVENT in state 0 or 3 goes one state on (R92, R153, R217). -/
def Obligations.StartDuringStopIsLatched : Prop :=
  ∀ s : State, s.pend = some .stop → s.startLatched = false →
    let latched : State := { s with
      ctrlInt := false, ctrlEa := false, ctrlSta := true, ctrlEn := true, startLatched := true }
    let held (cmd : BlockCmd) : State := { latched with seq := firstWait s.issuer cmd (program s.cfg cmd) }
    ctrlSto latched = true ∧
    (CanIssue s → exec .start s = .next (held .start) ∧
      (∀ dev reg data, exec (.writeTxn dev reg data) s = .next (held (.writeTxn dev reg data))) ∧
      ∀ dev reg, exec (.readTxn dev reg) s = .next (held (.readTxn dev reg))) ∧
    (CanEvent s → s.stepCtr ∈ [0#8, 3#8] → exec .fsmEvent s = .next { latched with
      stepCtr := s.stepCtr + 1, responses := s.responses ++ [(s.issuer, .nothing)] })

/-- STOP on a held bus with nothing in flight triggers the stop and retires in the same step with the response NONE
(R97). -/
def Obligations.StopTriggersAndRetires : Prop :=
  ∀ s : State, CanIssue s → s.pend = none → s.owned = true →
    exec .stop s = .next { s with
      ctrlInt := false, ctrlEa := false, ctrlSta := false, ctrlEn := true, pend := some .stop
      responses := s.responses ++ [(s.issuer, .nothing)] }

/-- STOP never blocks, in any state of a block not faulted (R97, W7): its issue step is its last, in which it responds
NONE or raises a fault. -/
def Obligations.StopNeverBlocks : Prop :=
  ∀ s : State, s.fault = 0 →
    ∃ t, exec .stop s = .next t ∧ t.seq = s.seq ∧
      ((t.fault = 0 ∧ t.responses = s.responses ++ [(s.issuer, .nothing)]) ∨
        (t.fault ≠ 0 ∧ t = { s with fault := t.fault }))

/-- WRITE_BYTE on a held bus with nothing in flight writes DATA unmodified, triggers the transmit and waits (R98). -/
def Obligations.WriteByteTriggersAndWaits : Prop :=
  ∀ (s : State) (c : Byte), CanIssue s → s.pend = none → s.owned = true →
    exec (.writeByte c) s = .next { s with
      ctrlInt := false, ctrlEa := true, ctrlSta := false, ctrlEn := true, data := c, pend := some .tx
      seq := firstWait s.issuer (.writeByte c) [.tx c] }

/-- READ_ACK and READ_NACK after an address byte on a held bus with nothing in flight trigger the receive, with EA = 1
and EA = 0, and wait (R99, R100). -/
def Obligations.ReadByteTriggersAndWaits : Prop :=
  ∀ s : State, CanIssue s → s.pend = none → s.owned = true → s.afterStart = false →
    exec .readAck s = .next { s with
      ctrlInt := false, ctrlEa := true, ctrlSta := false, ctrlEn := true, pend := some .rxAck
      seq := firstWait s.issuer .readAck [.rxAck] } ∧
    exec .readNack s = .next { s with
      ctrlInt := false, ctrlEa := false, ctrlSta := false, ctrlEn := true, pend := some .rxNack
      seq := firstWait s.issuer .readNack [.rxNack] }

/-- GET_STATUS responds with STATUS & 0xF8 in every state of a block not faulted, and changes nothing (R101, R171). -/
def Obligations.GetStatusIsPureRead : Prop :=
  decode 0x60000000 = .ok .getStatus ∧ ∀ s : State, s.fault = 0 →
    exec .getStatus s = .next { s with responses := s.responses ++ [(s.issuer, .byte (statusRaw s &&& 0xF8))] }

/-- READ_REG responds with the byte of the map at its offset, 0x00 where the map names none, in every state of a block
not faulted, and changes nothing (R52, R53, R102). -/
def Obligations.ReadRegReadsMap : Prop :=
  ∀ (s : State) (off : Byte), s.fault = 0 →
    exec (.readReg off) s = .next { s with responses := s.responses ++ [(s.issuer, .byte (
      if off = 0x00 then ctrlByte s
      else if off = 0x01 then s.code ++ s.cfg.psBits
      else if off = 0x02 then s.data
      else if off = 0x03 then s.stepCtr
      else if off = 0x04 then s.last
      else if off = 0x05 then s.result.extractLsb' 0 8
      else if off = 0x06 then s.result.extractLsb' 8 8
      else if off = 0x07 then s.result.extractLsb' 16 8
      else 0x00))] }

/-- CTRL as read: each flag at its position, STO computed, the reserved bits 0 (R22); and IRQ, equal to INT in every state
(the first sentence of R199). -/
def Obligations.ControlRegisterLayout : Prop :=
  ∀ s : State,
    (ctrlByte s).getLsbD 7 = s.ctrlInt ∧ (ctrlByte s).getLsbD 6 = s.ctrlEa ∧ (ctrlByte s).getLsbD 5 = s.ctrlSta ∧
      (ctrlByte s).getLsbD 4 = decide (s.pend = some .stop) ∧ (ctrlByte s).getLsbD 3 = false ∧
      (ctrlByte s).getLsbD 2 = s.ctrlEn ∧ (ctrlByte s).getLsbD 1 = false ∧ (ctrlByte s).getLsbD 0 = false ∧
      irq s = s.ctrlInt

-- ## The transactions (R125 to R141)

/-- WRITE_TXN with nothing in flight: SEQ runs the program of R126 and its start is triggered in the same step. -/
def Obligations.WriteTxnBegins : Prop :=
  ∀ (s : State) (dev reg data : Byte), CanIssue s → s.pend = none →
    exec (.writeTxn dev reg data) s = .next { s with
      ctrlInt := false, ctrlEa := false, ctrlSta := true, ctrlEn := true, pend := some .start
      seq := firstWait s.issuer (.writeTxn dev reg data) ([.start, .tx (addrByte s.cfg.addrMode dev .write), .tx reg, .tx data, .stop]) }

/-- READ_TXN with nothing in flight: SEQ runs the program of R127 and its start is triggered in the same step. -/
def Obligations.ReadTxnBegins : Prop :=
  ∀ (s : State) (dev reg : Byte), CanIssue s → s.pend = none →
    exec (.readTxn dev reg) s = .next { s with
      ctrlInt := false, ctrlEa := false, ctrlSta := true, ctrlEn := true, pend := some .start
      seq := firstWait s.issuer (.readTxn dev reg) ([.start, .tx (addrByte s.cfg.addrMode dev .write), .tx reg, .start, .tx (addrByte s.cfg.addrMode dev .read), .rxAck, .rxAck, .rxNack, .stop]) }

/-- The observing step of a primitive's wait (R96, R98 to R100): SEQ is idle and the owner gets NONE, or the byte in
DATA for a read. -/
def Obligations.PrimitiveRetiresOnFlag : Prop :=
  ∀ (s u : State) (r : Run), WaitStep s u r → s.ctrlInt = true →
    ((r.cmd = .start ∨ ∃ c, r.cmd = .writeByte c) →
      step s = .next { u with seq := .idle, responses := s.responses ++ [(r.owner, .nothing)] }) ∧
    (r.cmd = .readAck ∨ r.cmd = .readNack →
      step s = .next { u with seq := .idle, responses := s.responses ++ [(r.owner, .byte s.data)] })

/-- Under WAIT_BOUND = NONE a wait whose flag is 0 has no step, however often its issuer is chosen (R95, R112). That
the choice is used up is the model's (entry 4). -/
def Obligations.UnboundedWaitHolds : Prop :=
  ∀ (s u : State) (r : Run), WaitStep s u r → s.ctrlInt = false → s.cfg.waitBound = none → step s = .next u

/-- Under WAIT_BOUND = n a wait whose flag is 0 counts the poll, and the n-th poll ends it in TIMEOUT: a primitive
responds TIMEOUT, a transaction puts KIND = TIMEOUT and its phase in RESULT; the operation stays in flight (R95, R134). -/
def Obligations.BoundedWaitPollsAndTimesOut : Prop :=
  ∀ (s u : State) (r : Run) (n : Nat), WaitStep s u r → s.ctrlInt = false → s.cfg.waitBound = some n →
    (r.polls + 1 ≠ n → step s = .next { u with seq := .run { r with polls := r.polls + 1 } }) ∧
    (r.polls + 1 = n →
      ((∃ c, r.cmd = .writeByte c) ∨ r.cmd ∈ [BlockCmd.start, .readAck, .readNack] →
        step s = .next { u with seq := .idle, responses := s.responses ++ [(r.owner, .timeout)] }) ∧
      ((∃ d g x, r.cmd = .writeTxn d g x) ∨ (∃ d g, r.cmd = .readTxn d g) →
        step s = .next { u with
          result := 0#9 ++ 4#3 ++ BitVec.ofNat 4 r.idx ++ 0#8 ++ 0#8
          seq := .idle
          responses := s.responses ++ [(r.owner, .result (0#9 ++ 4#3 ++ BitVec.ofNat 4 r.idx ++ 0#8 ++ 0#8))] }))

/-- A phase of a transaction whose status is not looked at (INERT) or is the expected one (LIVE) is followed in the
same step by the trigger of the next phase, other than the stop, which the command then waits for (R130 to R132); the
eighth phase of a READ_TXN is followed by its stop and is not meant here. -/
def Obligations.CompletedPhaseTriggersNext : Prop :=
  ∀ (s u : State) (r : Run) (ph : Phase), WaitStep s u r → s.ctrlInt = true →
    ((∃ d g x, r.cmd = .writeTxn d g x) ∨ ((∃ d g, r.cmd = .readTxn d g) ∧ r.idx ≠ 8)) →
    PhasePasses r s → r.prog[r.idx]? = some ph → s.pend = none → (ph ≠ .start → s.owned = true) →
    let waiting : Seq := .run { r with idx := r.idx + 1, waiting := true, polls := 0 }
    (ph = .start → step s = .next { u with
      ctrlInt := false, ctrlEa := false, ctrlSta := true, ctrlEn := true, pend := some .start, seq := waiting }) ∧
    (∀ b, ph = .tx b → step s = .next { u with
      ctrlInt := false, ctrlEa := true, ctrlSta := false, ctrlEn := true, data := b, pend := some .tx
      seq := waiting }) ∧
    (ph = .rxAck → s.afterStart = false → step s = .next { u with
      ctrlInt := false, ctrlEa := true, ctrlSta := false, ctrlEn := true, pend := some .rxAck, seq := waiting }) ∧
    (ph = .rxNack → s.afterStart = false → step s = .next { u with
      ctrlInt := false, ctrlEa := false, ctrlSta := false, ctrlEn := true, pend := some .rxNack, seq := waiting })

/-- Under LIVE a phase whose status is not the expected code aborts the transaction (R133): a stop is triggered where
the bus is held and none where it is not, RESULT has the failure kind, the phase and the code, and LAST is not
written. -/
def Obligations.LiveMismatchAborts : Prop :=
  ∀ (s u : State) (r : Run) (n : StatusName), WaitStep s u r → s.ctrlInt = true →
    ((∃ d g x, r.cmd = .writeTxn d g x) ∨ ∃ d g, r.cmd = .readTxn d g) →
    s.cfg.checkMode = .live → expected r.cmd r.idx = some n → statusRaw s &&& 0xF8 ≠ s.cfg.statusCodes.value n →
    let v := statusRaw s &&& 0xF8
    let res : Word := 0#9 ++ (match failKind s.cfg.statusCodes v with
      | .failNack => 2#3
      | _ => 3#3) ++ BitVec.ofNat 4 r.idx ++ v ++ 0#8
    (s.owned = true → s.pend = none → step s = .next { u with
      ctrlInt := false, ctrlEa := false, ctrlSta := false, ctrlEn := true, pend := some .stop
      result := res, seq := .idle, responses := s.responses ++ [(r.owner, .result res)] }) ∧
    (s.owned = false → step s = .next { u with
      result := res, seq := .idle, responses := s.responses ++ [(r.owner, .result res)] })

/-- WRITE_TXN retires in the step that triggers its stop (R135): RESULT is 0x00100000 under LIVE, and under INERT it has
KIND = OK, PHASE = 0 and two drawn bytes, whatever they are (free values, entry 10). -/
def Obligations.WriteTxnRetires : Prop :=
  ∀ (s u : State) (r : Run) (dev reg data : Byte), WaitStep s u r → s.ctrlInt = true →
    r.cmd = .writeTxn dev reg data → r.prog = program s.cfg r.cmd → r.idx = 4 → s.pend = none → s.owned = true →
    let done (res : Word) (d : Nat) : State := { u with
      ctrlInt := false, ctrlEa := false, ctrlSta := false, ctrlEn := true, pend := some .stop, draws := d
      result := res, seq := .idle, responses := s.responses ++ [(r.owner, .result res)] }
    (s.cfg.checkMode = .live → statusRaw s &&& 0xF8 = s.cfg.statusCodes.dataTxAck →
      step s = .next (done 0x00100000 s.draws)) ∧
    (s.cfg.checkMode = .inert →
      step s = .next (done (0#9 ++ 1#3 ++ 0#4 ++ Config.freeByte s.draws ++ Config.freeByte (s.draws + 1))
        (s.draws + 2)))

/-- READ_TXN records the third byte at the completion of phase 8 and, in the same step, triggers its stop and retires
with that byte in RESULT (R136, R137). -/
def Obligations.ReadTxnRecordsAndRetires : Prop :=
  ∀ (s u : State) (r : Run) (dev reg : Byte), WaitStep s u r → s.ctrlInt = true → r.cmd = .readTxn dev reg →
    r.prog = program s.cfg r.cmd → r.idx = 8 → s.pend = none → s.owned = true →
    (s.cfg.checkMode = .inert ∨ statusRaw s &&& 0xF8 = s.cfg.statusCodes.dataRxNack) →
    step s = .next { u with
      ctrlInt := false, ctrlEa := false, ctrlSta := false, ctrlEn := true, pend := some .stop, last := s.data
      result := 0#9 ++ 1#3 ++ 0#4 ++ 0#8 ++ s.data, seq := .idle
      responses := s.responses ++ [(r.owner, .result (0#9 ++ 1#3 ++ 0#4 ++ 0#8 ++ s.data))] }

-- ## The event-driven machine (R150 to R167)

/-- FSM_EVENT in states 0 to 8 with nothing in flight: the action of the table, STEP one up, and the response NONE in
the same step (R151 to R161). -/
def Obligations.FsmEventActsByTable : Prop :=
  ∀ s : State, CanEvent s → s.pend = none →
    let fired (op : BusOp) (ea sta : Bool) (v : Byte) : State := { s with
      ctrlInt := false, ctrlEa := ea, ctrlSta := sta, ctrlEn := true, pend := some op, stepCtr := v
      responses := s.responses ++ [(s.issuer, .nothing)] }
    (s.stepCtr = 0 → exec .fsmEvent s = .next (fired .start false true 1)) ∧
    (s.stepCtr = 1 → s.owned = true →
      exec .fsmEvent s = .next { fired .tx true false 2 with data := addrByte s.cfg.addrMode s.cfg.fsmDev .write }) ∧
    (s.stepCtr = 2 → s.owned = true → exec .fsmEvent s = .next { fired .tx true false 3 with data := s.cfg.fsmReg }) ∧
    (s.stepCtr = 3 → exec .fsmEvent s = .next (fired .start false true 4)) ∧
    (s.stepCtr = 4 → s.owned = true →
      exec .fsmEvent s = .next { fired .tx true false 5 with data := addrByte s.cfg.addrMode s.cfg.fsmDev .read }) ∧
    (s.stepCtr = 5 → s.owned = true → s.afterStart = false → exec .fsmEvent s = .next (fired .rxAck true false 6)) ∧
    (s.stepCtr = 6 → s.owned = true → s.afterStart = false → exec .fsmEvent s = .next (fired .rxAck true false 7)) ∧
    (s.stepCtr = 7 → s.owned = true → s.afterStart = false →
      exec .fsmEvent s = .next { fired .rxNack false false 8 with cap := true }) ∧
    (s.stepCtr = 8 → s.owned = true → exec .fsmEvent s = .next (fired .stop false false 9))

/-- FSM_EVENT with STEP outside 0 to 8 sets STEP to 0 and does nothing else, whatever is in flight (R162, R167). -/
def Obligations.FsmEventDefaultBranch : Prop :=
  ∀ s : State, CanEvent s → 8 < s.stepCtr.toNat →
    exec .fsmEvent s = .next { s with stepCtr := 0, responses := s.responses ++ [(s.issuer, .nothing)] }

/-- A paced event raises no fault where the bus stands as the machine's earlier states leave it without a bus error
(R165): held in states 1, 2 and 4 to 8, with an address byte sent in states 5 to 7, and in state 0 nothing in flight or
a stop with no start latched. How R164's pacing is read at one step is the model's (entry 20). -/
def Obligations.PacedEventDoesNotFault : Prop :=
  ∀ s : State, s.fault = 0 → EngineInv s → PacedEvent s →
    (s.stepCtr ∈ [1#8, 2#8, 4#8, 5#8, 6#8, 7#8, 8#8] → s.owned = true) →
    (s.stepCtr ∈ [5#8, 6#8, 7#8] → s.afterStart = false) →
    (s.stepCtr = 0 → s.pend = none ∨ (s.pend = some .stop ∧ s.startLatched = false)) →
    ∃ t, exec .fsmEvent s = .next t ∧ t.fault = 0 ∧
      t.stepCtr = (if s.stepCtr.toNat ≤ 8 then s.stepCtr + 1 else 0)

-- ## ENGINE (R103 to R110)

/-- Completion of a start (R104). -/
def Obligations.EngineCompletesStart : Prop :=
  ∀ s u : State, EngineMove s u .done → s.pend = some .start →
    step s = .next { u with
      code := if s.owned then s.cfg.statusCodes.repStartSent.extractLsb' 3 5
        else s.cfg.statusCodes.startSent.extractLsb' 3 5
      trace := s.trace ++ [if s.owned then .restart else .start]
      owned := true, afterStart := true, pend := none, ctrlInt := true }

/-- Completion of a transmit (R105): an address phase where it is the first since a start, a data phase otherwise; a
NACK does not release the bus. -/
def Obligations.EngineCompletesTransmit : Prop :=
  ∀ (s u : State) (a : Ack), EngineMove s u (.acked a) → s.pend = some .tx →
    (s.afterStart = true → step s = .next { u with
      code := (match s.data.getLsbD 0, a with
        | false, .ack => s.cfg.statusCodes.slaWAck
        | false, .nack => s.cfg.statusCodes.slaWNack
        | true, .ack => s.cfg.statusCodes.slaRAck
        | true, .nack => s.cfg.statusCodes.slaRNack).extractLsb' 3 5
      trace := s.trace ++ [.addr s.data a], afterStart := false, pend := none, ctrlInt := true }) ∧
    (s.afterStart = false → step s = .next { u with
      code := (match a with
        | .ack => s.cfg.statusCodes.dataTxAck
        | .nack => s.cfg.statusCodes.dataTxNack).extractLsb' 3 5
      trace := s.trace ++ [.tx s.data a], pend := none, ctrlInt := true })

/-- Completion of a receive, whatever direction bit the address byte had, with the capture of the byte into LAST where
it is armed (R106, R107). -/
def Obligations.EngineCompletesReceive : Prop :=
  ∀ (s u : State) (v : Byte), EngineMove s u (.byte v) →
    (s.pend = some .rxAck → step s = .next { u with
      data := v, code := s.cfg.statusCodes.dataRxAck.extractLsb' 3 5, trace := s.trace ++ [.rx v .ack]
      last := if s.cap then v else s.last, cap := false, pend := none, ctrlInt := true }) ∧
    (s.pend = some .rxNack → step s = .next { u with
      data := v, code := s.cfg.statusCodes.dataRxNack.extractLsb' 3 5, trace := s.trace ++ [.rx v .nack]
      last := if s.cap then v else s.last, cap := false, pend := none, ctrlInt := true })

/-- Completion of a stop (R108): the bus is released, INT is not changed, and a latched start begins. -/
def Obligations.EngineCompletesStop : Prop :=
  ∀ s u : State, EngineMove s u .done → s.pend = some .stop →
    step s = .next { u with
      code := s.cfg.statusCodes.noInfo.extractLsb' 3 5, trace := s.trace ++ [.stop]
      owned := false, afterStart := false, startLatched := false
      pend := if s.startLatched then some .start else none }

/-- A bus error (R109): where it is admitted, any operation but a stop may end in one. -/
def Obligations.EngineCompletesBusError : Prop :=
  ∀ (s u : State) (op : BusOp), EngineMove s u .busError → s.pend = some op → op ≠ .stop →
    s.cfg.admitBusError = true →
    step s = .next { u with
      code := s.cfg.statusCodes.busError.extractLsb' 3 5, trace := s.trace ++ [.busError]
      owned := false, afterStart := false, cap := false, pend := none, ctrlInt := true }

/-- ENGINE has no step with nothing in flight or with an answer the operation does not admit (R103, R110). That the
choice is used up is the model's (entries 4, 14). -/
def Obligations.EngineWithoutAdmittedAnswerHolds : Prop :=
  ∀ (s u : State) (a : Answer), EngineMove s u a →
    (s.pend = none ∨ (s.pend = some .start ∧ a ≠ .done ∧ a ≠ .busError) ∨
      (s.pend = some .tx ∧ a ≠ .acked .ack ∧ a ≠ .acked .nack ∧ a ≠ .busError) ∨
      ((s.pend = some .rxAck ∨ s.pend = some .rxNack) ∧ (∀ v, a ≠ .byte v) ∧ a ≠ .busError) ∨
      (s.pend = some .stop ∧ a ≠ .done) ∨ (a = .busError ∧ s.cfg.admitBusError = false)) →
    step s = .next u

-- ## The status decoder (R170 to R183)

/-- In every table that meets R80, a code's name is unique and found, and exactly the three NACK codes of R182 are
FAIL_NACK. Each phase of a transaction expects the code of its row in R126 or R127 (R180), and a phase's check passes
exactly where it expects no code or finds the one it expects (R181). -/
def Obligations.FailureKindByCode : Prop :=
  ∀ t : StatusCodes, t.wf = true →
    (∀ n, classify t (t.value n) = some n) ∧
    (∀ v, failKind t v =
        if v = t.slaWNack ∨ v = t.slaRNack ∨ v = t.dataTxNack then .failNack else .failUnexpected) ∧
    (∀ (d g x v : Byte) (p : Nat), check t (.writeTxn d g x) p v =
      if p = 1 then v == t.startSent
      else if p = 2 then v == t.slaWAck
      else if p = 3 then v == t.dataTxAck
      else if p = 4 then v == t.dataTxAck
      else true) ∧
    (∀ (d g v : Byte) (p : Nat), check t (.readTxn d g) p v =
      if p = 1 then v == t.startSent
      else if p = 2 then v == t.slaWAck
      else if p = 3 then v == t.dataTxAck
      else if p = 4 then v == t.repStartSent
      else if p = 5 then v == t.slaRAck
      else if p = 6 then v == t.dataRxAck
      else if p = 7 then v == t.dataRxAck
      else if p = 8 then v == t.dataRxNack
      else true) ∧
    (∀ d g x, (List.range 5).map (fun p => expected (.writeTxn d g x) (p + 1)) =
      [some .startSent, some .slaWAck, some .dataTxAck, some .dataTxAck, none]) ∧
    ∀ d g, (List.range 9).map (fun p => expected (.readTxn d g) (p + 1)) =
      [some .startSent, some .slaWAck, some .dataTxAck, some .repStartSent, some .slaRAck, some .dataRxAck,
        some .dataRxAck, some .dataRxNack, none]

/-- Under LIVE with RAW a READ_TXN cannot pass the checks of both its address phases, whatever the bus answers (R139,
R225). -/
def Obligations.RawLiveReadCannotPass : Prop :=
  ∀ (t : StatusCodes) (dev reg : Byte) (a b : Ack), t.wf = true →
    check t (.readTxn dev reg) 2 (t.value (addrCode ((addrByte .raw dev .write).getLsbD 0) a)) = true →
    check t (.readTxn dev reg) 5 (t.value (addrCode ((addrByte .raw dev .read).getLsbD 0) b)) = false

-- ## Rules of the whole machine, over every step

/-- Every step keeps the relations between INT, ENG and FSM.CAP (R23, R37 to R41). -/
def Obligations.StepKeepsEngineInvariant : Prop := ∀ s t : State, EngineInv s → step s = .next t → EngineInv t

/-- Every step keeps the bus trace a legal one that ends where ENG says the bus stands (R43, R105, R174, R193).
What a legal trace is, is the model's reading (entry 21). -/
def Obligations.StepKeepsTraceLegal : Prop :=
  ∀ s t : State, EngineInv s → TraceLegal s → step s = .next t → TraceLegal t

/-- Every step keeps a running command waiting on the operation of a phase of its own program (R42, R91, R130). -/
def Obligations.StepKeepsRunningCommand : Prop :=
  ∀ s t : State, s.cfg.wf = true → SeqInv s → step s = .next t → SeqInv t

/-- Every step keeps EN = 0 only before the first trigger (R25), STATUS.CODE a code of the table other than ARB_LOST
(R29, R179), RESULT's layout (R35), STEP at most 9 and FAULT at most 4 (R32, R36). -/
def Obligations.StepKeepsRegisterRanges : Prop :=
  ∀ s t : State, step s = .next t →
    (EnableInv s → EnableInv t) ∧ (CodeInv s → CodeInv t) ∧ (ResultInv s → ResultInv t) ∧
      (CounterInv s → CounterInv t)

/-- No step changes a parameter (R8), and the trace only grows, by at most one event, and only in a step of ENGINE with
an operation in flight (R43). -/
def Obligations.ConfigFixedTraceGrows : Prop :=
  ∀ s t : State, step s = .next t →
    t.cfg = s.cfg ∧ (t.trace = s.trace ∨
      ∃ e a, t.trace = s.trace ++ [e] ∧ (takeMove s).1 = .engine a ∧ s.pend ≠ none)

/-- STEP is written by FSM_EVENT alone (R31). -/
def Obligations.OnlyEventsWriteStep : Prop :=
  ∀ s t : State, step s = .next t → t.stepCtr ≠ s.stepCtr →
    ∃ c w ws, (takeMove s).1 = .context c ∧ outstanding c s = false ∧ port c s = w :: ws ∧ decode w = .ok .fsmEvent

/-- LAST is written by READ_TXN at the completion of its eighth phase and by the capture latch alone, and gets the byte
received (R34). -/
def Obligations.OnlyThirdByteWritesLast : Prop :=
  ∀ s t : State, step s = .next t → t.last ≠ s.last →
    (∃ r d g, s.seq = .run r ∧ r.cmd = .readTxn d g ∧ r.idx = 8 ∧ s.ctrlInt = true ∧ t.last = s.data) ∨
      (∃ v, s.cap = true ∧ (takeMove s).1 = .engine (.byte v) ∧ t.last = v)

/-- DATA does not change while a transmit is in flight (R94). -/
def Obligations.DataStableDuringTransmit : Prop :=
  ∀ s t : State, step s = .next t → s.pend = some .tx → t.data = s.data

/-- STATUS.CODE is written by ENGINE alone, at the completion of an operation (R29). -/
def Obligations.OnlyEngineWritesStatus : Prop :=
  ∀ s t : State, step s = .next t → t.code ≠ s.code →
    ∃ a op, (takeMove s).1 = .engine a ∧ s.pend = some op ∧ admits s.cfg op a = true

/-- RESULT is written at the end of a WRITE_TXN or READ_TXN alone (R35), and that transaction's owner gets the same
value as its response. -/
def Obligations.OnlyTransactionEndWritesResult : Prop :=
  ∀ s t : State, step s = .next t → t.result ≠ s.result →
    ∃ r, s.seq = .run r ∧ ((∃ d g x, r.cmd = .writeTxn d g x) ∨ ∃ d g, r.cmd = .readTxn d g) ∧ t.seq = .idle ∧
      t.responses = s.responses ++ [(r.owner, .result t.result)]

/-- A context that has no enabled step and is chosen all the same changes nothing (R12, R13; entry 4). -/
def Obligations.DisabledContextChangesNothing : Prop :=
  ∀ (s u : State) (c : Ctx), SeqInv s → s.fault = 0 → takeMove s = (.context c, u) → contextEnabled c s = false →
    step s = .next u

-- ## Whole transactions (R140, R141, R166)

/-- A WRITE_TXN under INERT, issued by MAIN with the bus free and nothing in flight, each operation completed by ENGINE
before MAIN's next step, puts exactly the five events of R140 on the bus, whatever the bus acknowledges. -/
def Obligations.WriteTxnBusOrder : Prop :=
  ∀ (s : State) (dev reg data : Byte) (a₂ a₃ a₄ : Ack) (ws : List Word) (ms : List Move),
    CanIssue s → s.pend = none → s.owned = false → s.startLatched = false → s.cfg.checkMode = .inert →
    s.mainPort = encode (.writeTxn dev reg data) :: ws →
    s.sched = [.context .main, .engine .done, .context .main, .engine (.acked a₂), .context .main,
      .engine (.acked a₃), .context .main, .engine (.acked a₄), .context .main, .engine .done] ++ ms →
    ∃ t, Sys2Proof.core.run 10 s = .next t ∧
      t.trace = s.trace ++ [.start, .addr (addrByte s.cfg.addrMode dev .write) a₂, .tx reg a₃, .tx data a₄, .stop] ∧
      t.seq = .idle ∧ t.pend = none ∧ t.owned = false ∧ t.fault = 0 ∧ t.last = s.last ∧ t.sched = ms ∧ t.mainPort = ws

/-- The same under LIVE, where every byte is acknowledged and bit 0 of the address byte is 0: the same five events, and
RESULT = 0x00100000 (R135, R140). -/
def Obligations.LiveWriteTxnSucceeds : Prop :=
  ∀ (s : State) (dev reg data : Byte) (ws : List Word) (ms : List Move),
    CanIssue s → s.pend = none → s.owned = false → s.startLatched = false → s.cfg.wf = true →
    s.cfg.checkMode = .live → (addrByte s.cfg.addrMode dev .write).getLsbD 0 = false →
    s.mainPort = encode (.writeTxn dev reg data) :: ws →
    s.sched = [.context .main, .engine .done, .context .main, .engine (.acked .ack), .context .main,
      .engine (.acked .ack), .context .main, .engine (.acked .ack), .context .main, .engine .done] ++ ms →
    ∃ t, Sys2Proof.core.run 10 s = .next t ∧
      t.trace = s.trace ++ [.start, .addr (addrByte s.cfg.addrMode dev .write) .ack, .tx reg .ack, .tx data .ack,
        .stop] ∧
      t.result = 0x00100000 ∧ t.responses = s.responses ++ [(.main, .result 0x00100000)]

/-- A READ_TXN under INERT, issued by MAIN with the bus free and nothing in flight, each operation completed by ENGINE
before MAIN's next step and without bus error, puts exactly the nine events of R141 on the bus and returns the third
byte, whatever the bus answers. -/
def Obligations.ReadTxnBusOrder : Prop :=
  ∀ (s : State) (dev reg : Byte) (a₂ a₃ a₅ : Ack) (b₁ b₂ b₃ : Byte) (ws : List Word) (ms : List Move),
    CanIssue s → s.pend = none → s.owned = false → s.startLatched = false → s.cap = false →
    s.cfg.checkMode = .inert → s.mainPort = encode (.readTxn dev reg) :: ws →
    s.sched = [.context .main, .engine .done, .context .main, .engine (.acked a₂), .context .main,
      .engine (.acked a₃), .context .main, .engine .done, .context .main, .engine (.acked a₅), .context .main,
      .engine (.byte b₁), .context .main, .engine (.byte b₂), .context .main, .engine (.byte b₃), .context .main,
      .engine .done] ++ ms →
    ∃ t, Sys2Proof.core.run 18 s = .next t ∧
      t.trace = s.trace ++ [.start, .addr (addrByte s.cfg.addrMode dev .write) a₂, .tx reg a₃, .restart,
        .addr (addrByte s.cfg.addrMode dev .read) a₅, .rx b₁ .ack, .rx b₂ .ack, .rx b₃ .nack, .stop] ∧
      t.result = 0#9 ++ 1#3 ++ 0#4 ++ 0#8 ++ b₃ ∧ t.last = b₃ ∧
      t.responses = s.responses ++ [(.main, .result (0#9 ++ 1#3 ++ 0#4 ++ 0#8 ++ b₃))] ∧ t.fault = 0 ∧
      t.owned = false ∧ t.seq = .idle

/-- Nine paced events of HANDLER from STEP = 0 on a free bus with nothing in flight, without bus error, put the nine
events of R166 on the bus, leave STEP = 9 and the third byte in LAST, in either check mode. -/
def Obligations.NineEventsMirrorRead : Prop :=
  ∀ (s : State) (a₁ a₂ a₄ : Ack) (b₁ b₂ b₃ : Byte) (ws : List Word) (ms : List Move),
    CanEvent s → s.stepCtr = 0 → s.pend = none → s.owned = false → s.startLatched = false → s.cap = false →
    s.handlerPort = List.replicate 9 (encode .fsmEvent) ++ ws →
    s.sched = [.context .handler, .engine .done, .context .handler, .engine (.acked a₁), .context .handler,
      .engine (.acked a₂), .context .handler, .engine .done, .context .handler, .engine (.acked a₄),
      .context .handler, .engine (.byte b₁), .context .handler, .engine (.byte b₂), .context .handler,
      .engine (.byte b₃), .context .handler, .engine .done] ++ ms →
    ∃ t, Sys2Proof.core.run 18 s = .next t ∧
      t.trace = s.trace ++ [.start, .addr (addrByte s.cfg.addrMode s.cfg.fsmDev .write) a₁, .tx s.cfg.fsmReg a₂,
        .restart, .addr (addrByte s.cfg.addrMode s.cfg.fsmDev .read) a₄, .rx b₁ .ack, .rx b₂ .ack, .rx b₃ .nack,
        .stop] ∧
      t.stepCtr = 9 ∧ t.last = b₃ ∧ t.fault = 0 ∧ t.owned = false ∧ t.cap = false ∧ t.result = s.result
end

