-- ==== Sys2Proof/Laws/Decode.lean ====
section
/-! SUPPORT. The fields of a command word: what each field of an assembled word is, and that a word is its fields. -/

namespace Sys2Proof

theorem getLsbD_wordOfFields (op : BitVec 4) (a b c : Byte) (j : Nat) :
    (wordOfFields op a b c).getLsbD j =
      if j < 8 then c.getLsbD j else if j < 16 then b.getLsbD (j - 8) else if j < 24 then a.getLsbD (j - 16)
      else if j < 28 then false else op.getLsbD (j - 28) := by
  change BitVec.getLsbD (w := 4 + 4 + 8 + 8 + 8) (op ++ 0#4 ++ a ++ b ++ c) j = _
  simp only [BitVec.getLsbD_append, BitVec.getLsbD_zero]
  split_ifs <;> first | rfl | omega

/-- Each field of an assembled word is the one it was assembled from, and RSV is 0 (R70). -/
theorem fields_wordOfFields (op : BitVec 4) (a b c : Byte) :
    opField (wordOfFields op a b c) = op ∧ rsvField (wordOfFields op a b c) = 0#4 ∧
      aField (wordOfFields op a b c) = a ∧ bField (wordOfFields op a b c) = b ∧
      cField (wordOfFields op a b c) = c := by
  refine ⟨?_, ?_, ?_, ?_, ?_⟩ <;> refine BitVec.eq_of_getLsbD_eq fun j hj => ?_ <;>
    simp only [opField, rsvField, aField, bField, cField, BitVec.getLsbD_extractLsb', getLsbD_wordOfFields] <;>
    split_ifs <;> first | omega | simp_all

theorem getLsbD_by_field (x : Word) (j : Nat) (hj : j < 32) :
    x.getLsbD j =
      if j < 8 then (cField x).getLsbD j else if j < 16 then (bField x).getLsbD (j - 8)
      else if j < 24 then (aField x).getLsbD (j - 16) else if j < 28 then (rsvField x).getLsbD (j - 24)
      else (opField x).getLsbD (j - 28) := by
  simp only [opField, rsvField, aField, bField, cField, BitVec.getLsbD_extractLsb']
  split_ifs <;> rw [decide_eq_true (by omega), Bool.true_and] <;> congr 1 <;> omega

/-- Two words with the same five fields are the same word. -/
theorem word_ext {w v : Word} (h₁ : opField w = opField v) (h₂ : rsvField w = rsvField v)
    (h₃ : aField w = aField v) (h₄ : bField w = bField v) (h₅ : cField w = cField v) : w = v := by
  refine BitVec.eq_of_getLsbD_eq fun j hj => ?_
  rw [getLsbD_by_field w j hj, getLsbD_by_field v j hj, h₁, h₂, h₃, h₄, h₅]

/-- The fields of a masked word. -/
theorem fields_and (w v : Word) :
    opField (w &&& v) = opField w &&& opField v ∧ rsvField (w &&& v) = rsvField w &&& rsvField v ∧
      aField (w &&& v) = aField w &&& aField v ∧ bField (w &&& v) = bField w &&& bField v ∧
      cField (w &&& v) = cField w &&& cField v := by
  refine ⟨?_, ?_, ?_, ?_, ?_⟩ <;> simp [opField, rsvField, aField, bField, cField, BitVec.extractLsb'_and]

end Sys2Proof
end

