-- ==== Sys2Proof/Laws/State.lean ====
section
/-! SUPPORT. One lemma per field of each update of the state: what it writes, and that it writes nothing else. -/

namespace Sys2Proof.Machine

@[simp] theorem raiseFault_cfg (k : FaultReason) (s : State) : (raiseFault k s).cfg = s.cfg := rfl
@[simp] theorem raiseFault_ctrlInt (k : FaultReason) (s : State) : (raiseFault k s).ctrlInt = s.ctrlInt := rfl
@[simp] theorem raiseFault_ctrlEa (k : FaultReason) (s : State) : (raiseFault k s).ctrlEa = s.ctrlEa := rfl
@[simp] theorem raiseFault_ctrlSta (k : FaultReason) (s : State) : (raiseFault k s).ctrlSta = s.ctrlSta := rfl
@[simp] theorem raiseFault_ctrlEn (k : FaultReason) (s : State) : (raiseFault k s).ctrlEn = s.ctrlEn := rfl
@[simp] theorem raiseFault_data (k : FaultReason) (s : State) : (raiseFault k s).data = s.data := rfl
@[simp] theorem raiseFault_code (k : FaultReason) (s : State) : (raiseFault k s).code = s.code := rfl
@[simp] theorem raiseFault_stepCtr (k : FaultReason) (s : State) : (raiseFault k s).stepCtr = s.stepCtr := rfl
@[simp] theorem raiseFault_last (k : FaultReason) (s : State) : (raiseFault k s).last = s.last := rfl
@[simp] theorem raiseFault_result (k : FaultReason) (s : State) : (raiseFault k s).result = s.result := rfl
@[simp] theorem raiseFault_fault (k : FaultReason) (s : State) : (raiseFault k s).fault = faultCode k := rfl
@[simp] theorem raiseFault_pend (k : FaultReason) (s : State) : (raiseFault k s).pend = s.pend := rfl
@[simp] theorem raiseFault_owned (k : FaultReason) (s : State) : (raiseFault k s).owned = s.owned := rfl
@[simp] theorem raiseFault_afterStart (k : FaultReason) (s : State) : (raiseFault k s).afterStart = s.afterStart := rfl
@[simp] theorem raiseFault_startLatched (k : FaultReason) (s : State) : (raiseFault k s).startLatched = s.startLatched := rfl
@[simp] theorem raiseFault_cap (k : FaultReason) (s : State) : (raiseFault k s).cap = s.cap := rfl
@[simp] theorem raiseFault_seq (k : FaultReason) (s : State) : (raiseFault k s).seq = s.seq := rfl
@[simp] theorem raiseFault_trace (k : FaultReason) (s : State) : (raiseFault k s).trace = s.trace := rfl
@[simp] theorem raiseFault_mainPort (k : FaultReason) (s : State) : (raiseFault k s).mainPort = s.mainPort := rfl
@[simp] theorem raiseFault_handlerPort (k : FaultReason) (s : State) : (raiseFault k s).handlerPort = s.handlerPort := rfl
@[simp] theorem raiseFault_sched (k : FaultReason) (s : State) : (raiseFault k s).sched = s.sched := rfl
@[simp] theorem raiseFault_moves (k : FaultReason) (s : State) : (raiseFault k s).moves = s.moves := rfl
@[simp] theorem raiseFault_draws (k : FaultReason) (s : State) : (raiseFault k s).draws = s.draws := rfl
@[simp] theorem raiseFault_issuer (k : FaultReason) (s : State) : (raiseFault k s).issuer = s.issuer := rfl
@[simp] theorem raiseFault_responses (k : FaultReason) (s : State) : (raiseFault k s).responses = s.responses := rfl

@[simp] theorem respond_cfg (c : Ctx) (x : Response) (s : State) : (respond c x s).cfg = s.cfg := rfl
@[simp] theorem respond_ctrlInt (c : Ctx) (x : Response) (s : State) : (respond c x s).ctrlInt = s.ctrlInt := rfl
@[simp] theorem respond_ctrlEa (c : Ctx) (x : Response) (s : State) : (respond c x s).ctrlEa = s.ctrlEa := rfl
@[simp] theorem respond_ctrlSta (c : Ctx) (x : Response) (s : State) : (respond c x s).ctrlSta = s.ctrlSta := rfl
@[simp] theorem respond_ctrlEn (c : Ctx) (x : Response) (s : State) : (respond c x s).ctrlEn = s.ctrlEn := rfl
@[simp] theorem respond_data (c : Ctx) (x : Response) (s : State) : (respond c x s).data = s.data := rfl
@[simp] theorem respond_code (c : Ctx) (x : Response) (s : State) : (respond c x s).code = s.code := rfl
@[simp] theorem respond_stepCtr (c : Ctx) (x : Response) (s : State) : (respond c x s).stepCtr = s.stepCtr := rfl
@[simp] theorem respond_last (c : Ctx) (x : Response) (s : State) : (respond c x s).last = s.last := rfl
@[simp] theorem respond_result (c : Ctx) (x : Response) (s : State) : (respond c x s).result = s.result := rfl
@[simp] theorem respond_fault (c : Ctx) (x : Response) (s : State) : (respond c x s).fault = s.fault := rfl
@[simp] theorem respond_pend (c : Ctx) (x : Response) (s : State) : (respond c x s).pend = s.pend := rfl
@[simp] theorem respond_owned (c : Ctx) (x : Response) (s : State) : (respond c x s).owned = s.owned := rfl
@[simp] theorem respond_afterStart (c : Ctx) (x : Response) (s : State) : (respond c x s).afterStart = s.afterStart := rfl
@[simp] theorem respond_startLatched (c : Ctx) (x : Response) (s : State) : (respond c x s).startLatched = s.startLatched := rfl
@[simp] theorem respond_cap (c : Ctx) (x : Response) (s : State) : (respond c x s).cap = s.cap := rfl
@[simp] theorem respond_seq (c : Ctx) (x : Response) (s : State) : (respond c x s).seq = s.seq := rfl
@[simp] theorem respond_trace (c : Ctx) (x : Response) (s : State) : (respond c x s).trace = s.trace := rfl
@[simp] theorem respond_mainPort (c : Ctx) (x : Response) (s : State) : (respond c x s).mainPort = s.mainPort := rfl
@[simp] theorem respond_handlerPort (c : Ctx) (x : Response) (s : State) : (respond c x s).handlerPort = s.handlerPort := rfl
@[simp] theorem respond_sched (c : Ctx) (x : Response) (s : State) : (respond c x s).sched = s.sched := rfl
@[simp] theorem respond_moves (c : Ctx) (x : Response) (s : State) : (respond c x s).moves = s.moves := rfl
@[simp] theorem respond_draws (c : Ctx) (x : Response) (s : State) : (respond c x s).draws = s.draws := rfl
@[simp] theorem respond_issuer (c : Ctx) (x : Response) (s : State) : (respond c x s).issuer = s.issuer := rfl
@[simp] theorem respond_responses (c : Ctx) (x : Response) (s : State) : (respond c x s).responses = s.responses ++ [(c, x)] := rfl

@[simp] theorem emit_cfg (e : BusEvent) (s : State) : (emit e s).cfg = s.cfg := rfl
@[simp] theorem emit_ctrlInt (e : BusEvent) (s : State) : (emit e s).ctrlInt = s.ctrlInt := rfl
@[simp] theorem emit_ctrlEa (e : BusEvent) (s : State) : (emit e s).ctrlEa = s.ctrlEa := rfl
@[simp] theorem emit_ctrlSta (e : BusEvent) (s : State) : (emit e s).ctrlSta = s.ctrlSta := rfl
@[simp] theorem emit_ctrlEn (e : BusEvent) (s : State) : (emit e s).ctrlEn = s.ctrlEn := rfl
@[simp] theorem emit_data (e : BusEvent) (s : State) : (emit e s).data = s.data := rfl
@[simp] theorem emit_code (e : BusEvent) (s : State) : (emit e s).code = s.code := rfl
@[simp] theorem emit_stepCtr (e : BusEvent) (s : State) : (emit e s).stepCtr = s.stepCtr := rfl
@[simp] theorem emit_last (e : BusEvent) (s : State) : (emit e s).last = s.last := rfl
@[simp] theorem emit_result (e : BusEvent) (s : State) : (emit e s).result = s.result := rfl
@[simp] theorem emit_fault (e : BusEvent) (s : State) : (emit e s).fault = s.fault := rfl
@[simp] theorem emit_pend (e : BusEvent) (s : State) : (emit e s).pend = s.pend := rfl
@[simp] theorem emit_owned (e : BusEvent) (s : State) : (emit e s).owned = s.owned := rfl
@[simp] theorem emit_afterStart (e : BusEvent) (s : State) : (emit e s).afterStart = s.afterStart := rfl
@[simp] theorem emit_startLatched (e : BusEvent) (s : State) : (emit e s).startLatched = s.startLatched := rfl
@[simp] theorem emit_cap (e : BusEvent) (s : State) : (emit e s).cap = s.cap := rfl
@[simp] theorem emit_seq (e : BusEvent) (s : State) : (emit e s).seq = s.seq := rfl
@[simp] theorem emit_trace (e : BusEvent) (s : State) : (emit e s).trace = s.trace ++ [e] := rfl
@[simp] theorem emit_mainPort (e : BusEvent) (s : State) : (emit e s).mainPort = s.mainPort := rfl
@[simp] theorem emit_handlerPort (e : BusEvent) (s : State) : (emit e s).handlerPort = s.handlerPort := rfl
@[simp] theorem emit_sched (e : BusEvent) (s : State) : (emit e s).sched = s.sched := rfl
@[simp] theorem emit_moves (e : BusEvent) (s : State) : (emit e s).moves = s.moves := rfl
@[simp] theorem emit_draws (e : BusEvent) (s : State) : (emit e s).draws = s.draws := rfl
@[simp] theorem emit_issuer (e : BusEvent) (s : State) : (emit e s).issuer = s.issuer := rfl
@[simp] theorem emit_responses (e : BusEvent) (s : State) : (emit e s).responses = s.responses := rfl

@[simp] theorem setCode_cfg (n : StatusName) (s : State) : (setCode n s).cfg = s.cfg := rfl
@[simp] theorem setCode_ctrlInt (n : StatusName) (s : State) : (setCode n s).ctrlInt = s.ctrlInt := rfl
@[simp] theorem setCode_ctrlEa (n : StatusName) (s : State) : (setCode n s).ctrlEa = s.ctrlEa := rfl
@[simp] theorem setCode_ctrlSta (n : StatusName) (s : State) : (setCode n s).ctrlSta = s.ctrlSta := rfl
@[simp] theorem setCode_ctrlEn (n : StatusName) (s : State) : (setCode n s).ctrlEn = s.ctrlEn := rfl
@[simp] theorem setCode_data (n : StatusName) (s : State) : (setCode n s).data = s.data := rfl
@[simp] theorem setCode_code (n : StatusName) (s : State) : (setCode n s).code = codeBits s.cfg n := rfl
@[simp] theorem setCode_stepCtr (n : StatusName) (s : State) : (setCode n s).stepCtr = s.stepCtr := rfl
@[simp] theorem setCode_last (n : StatusName) (s : State) : (setCode n s).last = s.last := rfl
@[simp] theorem setCode_result (n : StatusName) (s : State) : (setCode n s).result = s.result := rfl
@[simp] theorem setCode_fault (n : StatusName) (s : State) : (setCode n s).fault = s.fault := rfl
@[simp] theorem setCode_pend (n : StatusName) (s : State) : (setCode n s).pend = s.pend := rfl
@[simp] theorem setCode_owned (n : StatusName) (s : State) : (setCode n s).owned = s.owned := rfl
@[simp] theorem setCode_afterStart (n : StatusName) (s : State) : (setCode n s).afterStart = s.afterStart := rfl
@[simp] theorem setCode_startLatched (n : StatusName) (s : State) : (setCode n s).startLatched = s.startLatched := rfl
@[simp] theorem setCode_cap (n : StatusName) (s : State) : (setCode n s).cap = s.cap := rfl
@[simp] theorem setCode_seq (n : StatusName) (s : State) : (setCode n s).seq = s.seq := rfl
@[simp] theorem setCode_trace (n : StatusName) (s : State) : (setCode n s).trace = s.trace := rfl
@[simp] theorem setCode_mainPort (n : StatusName) (s : State) : (setCode n s).mainPort = s.mainPort := rfl
@[simp] theorem setCode_handlerPort (n : StatusName) (s : State) : (setCode n s).handlerPort = s.handlerPort := rfl
@[simp] theorem setCode_sched (n : StatusName) (s : State) : (setCode n s).sched = s.sched := rfl
@[simp] theorem setCode_moves (n : StatusName) (s : State) : (setCode n s).moves = s.moves := rfl
@[simp] theorem setCode_draws (n : StatusName) (s : State) : (setCode n s).draws = s.draws := rfl
@[simp] theorem setCode_issuer (n : StatusName) (s : State) : (setCode n s).issuer = s.issuer := rfl
@[simp] theorem setCode_responses (n : StatusName) (s : State) : (setCode n s).responses = s.responses := rfl

@[simp] theorem launch_cfg (op : BusOp) (s : State) : (launch op s).cfg = s.cfg := rfl
@[simp] theorem launch_ctrlInt (op : BusOp) (s : State) : (launch op s).ctrlInt = false := rfl
@[simp] theorem launch_ctrlEa (op : BusOp) (s : State) : (launch op s).ctrlEa = (image op).getLsbD 6 := rfl
@[simp] theorem launch_ctrlSta (op : BusOp) (s : State) : (launch op s).ctrlSta = (image op).getLsbD 5 := rfl
@[simp] theorem launch_ctrlEn (op : BusOp) (s : State) : (launch op s).ctrlEn = (image op).getLsbD 2 := rfl
@[simp] theorem launch_data (op : BusOp) (s : State) : (launch op s).data = s.data := rfl
@[simp] theorem launch_code (op : BusOp) (s : State) : (launch op s).code = s.code := rfl
@[simp] theorem launch_stepCtr (op : BusOp) (s : State) : (launch op s).stepCtr = s.stepCtr := rfl
@[simp] theorem launch_last (op : BusOp) (s : State) : (launch op s).last = s.last := rfl
@[simp] theorem launch_result (op : BusOp) (s : State) : (launch op s).result = s.result := rfl
@[simp] theorem launch_fault (op : BusOp) (s : State) : (launch op s).fault = s.fault := rfl
@[simp] theorem launch_pend (op : BusOp) (s : State) : (launch op s).pend = if latches op s then s.pend else some op := rfl
@[simp] theorem launch_owned (op : BusOp) (s : State) : (launch op s).owned = s.owned := rfl
@[simp] theorem launch_afterStart (op : BusOp) (s : State) : (launch op s).afterStart = s.afterStart := rfl
@[simp] theorem launch_startLatched (op : BusOp) (s : State) : (launch op s).startLatched = if latches op s then true else s.startLatched := rfl
@[simp] theorem launch_cap (op : BusOp) (s : State) : (launch op s).cap = s.cap := rfl
@[simp] theorem launch_seq (op : BusOp) (s : State) : (launch op s).seq = s.seq := rfl
@[simp] theorem launch_trace (op : BusOp) (s : State) : (launch op s).trace = s.trace := rfl
@[simp] theorem launch_mainPort (op : BusOp) (s : State) : (launch op s).mainPort = s.mainPort := rfl
@[simp] theorem launch_handlerPort (op : BusOp) (s : State) : (launch op s).handlerPort = s.handlerPort := rfl
@[simp] theorem launch_sched (op : BusOp) (s : State) : (launch op s).sched = s.sched := rfl
@[simp] theorem launch_moves (op : BusOp) (s : State) : (launch op s).moves = s.moves := rfl
@[simp] theorem launch_draws (op : BusOp) (s : State) : (launch op s).draws = s.draws := rfl
@[simp] theorem launch_issuer (op : BusOp) (s : State) : (launch op s).issuer = s.issuer := rfl
@[simp] theorem launch_responses (op : BusOp) (s : State) : (launch op s).responses = s.responses := rfl

@[simp] theorem await_cfg (r : Run) (s : State) : (await r s).cfg = s.cfg := rfl
@[simp] theorem await_ctrlInt (r : Run) (s : State) : (await r s).ctrlInt = s.ctrlInt := rfl
@[simp] theorem await_ctrlEa (r : Run) (s : State) : (await r s).ctrlEa = s.ctrlEa := rfl
@[simp] theorem await_ctrlSta (r : Run) (s : State) : (await r s).ctrlSta = s.ctrlSta := rfl
@[simp] theorem await_ctrlEn (r : Run) (s : State) : (await r s).ctrlEn = s.ctrlEn := rfl
@[simp] theorem await_data (r : Run) (s : State) : (await r s).data = s.data := rfl
@[simp] theorem await_code (r : Run) (s : State) : (await r s).code = s.code := rfl
@[simp] theorem await_stepCtr (r : Run) (s : State) : (await r s).stepCtr = s.stepCtr := rfl
@[simp] theorem await_last (r : Run) (s : State) : (await r s).last = s.last := rfl
@[simp] theorem await_result (r : Run) (s : State) : (await r s).result = s.result := rfl
@[simp] theorem await_fault (r : Run) (s : State) : (await r s).fault = s.fault := rfl
@[simp] theorem await_pend (r : Run) (s : State) : (await r s).pend = s.pend := rfl
@[simp] theorem await_owned (r : Run) (s : State) : (await r s).owned = s.owned := rfl
@[simp] theorem await_afterStart (r : Run) (s : State) : (await r s).afterStart = s.afterStart := rfl
@[simp] theorem await_startLatched (r : Run) (s : State) : (await r s).startLatched = s.startLatched := rfl
@[simp] theorem await_cap (r : Run) (s : State) : (await r s).cap = s.cap := rfl
@[simp] theorem await_seq (r : Run) (s : State) : (await r s).seq = .run { r with waiting := true, polls := 0 } := rfl
@[simp] theorem await_trace (r : Run) (s : State) : (await r s).trace = s.trace := rfl
@[simp] theorem await_mainPort (r : Run) (s : State) : (await r s).mainPort = s.mainPort := rfl
@[simp] theorem await_handlerPort (r : Run) (s : State) : (await r s).handlerPort = s.handlerPort := rfl
@[simp] theorem await_sched (r : Run) (s : State) : (await r s).sched = s.sched := rfl
@[simp] theorem await_moves (r : Run) (s : State) : (await r s).moves = s.moves := rfl
@[simp] theorem await_draws (r : Run) (s : State) : (await r s).draws = s.draws := rfl
@[simp] theorem await_issuer (r : Run) (s : State) : (await r s).issuer = s.issuer := rfl
@[simp] theorem await_responses (r : Run) (s : State) : (await r s).responses = s.responses := rfl

@[simp] theorem retirePrimitive_cfg (r : Run) (x : Response) (s : State) : (retirePrimitive r x s).cfg = s.cfg := rfl
@[simp] theorem retirePrimitive_ctrlInt (r : Run) (x : Response) (s : State) : (retirePrimitive r x s).ctrlInt = s.ctrlInt := rfl
@[simp] theorem retirePrimitive_ctrlEa (r : Run) (x : Response) (s : State) : (retirePrimitive r x s).ctrlEa = s.ctrlEa := rfl
@[simp] theorem retirePrimitive_ctrlSta (r : Run) (x : Response) (s : State) : (retirePrimitive r x s).ctrlSta = s.ctrlSta := rfl
@[simp] theorem retirePrimitive_ctrlEn (r : Run) (x : Response) (s : State) : (retirePrimitive r x s).ctrlEn = s.ctrlEn := rfl
@[simp] theorem retirePrimitive_data (r : Run) (x : Response) (s : State) : (retirePrimitive r x s).data = s.data := rfl
@[simp] theorem retirePrimitive_code (r : Run) (x : Response) (s : State) : (retirePrimitive r x s).code = s.code := rfl
@[simp] theorem retirePrimitive_stepCtr (r : Run) (x : Response) (s : State) : (retirePrimitive r x s).stepCtr = s.stepCtr := rfl
@[simp] theorem retirePrimitive_last (r : Run) (x : Response) (s : State) : (retirePrimitive r x s).last = s.last := rfl
@[simp] theorem retirePrimitive_result (r : Run) (x : Response) (s : State) : (retirePrimitive r x s).result = s.result := rfl
@[simp] theorem retirePrimitive_fault (r : Run) (x : Response) (s : State) : (retirePrimitive r x s).fault = s.fault := rfl
@[simp] theorem retirePrimitive_pend (r : Run) (x : Response) (s : State) : (retirePrimitive r x s).pend = s.pend := rfl
@[simp] theorem retirePrimitive_owned (r : Run) (x : Response) (s : State) : (retirePrimitive r x s).owned = s.owned := rfl
@[simp] theorem retirePrimitive_afterStart (r : Run) (x : Response) (s : State) : (retirePrimitive r x s).afterStart = s.afterStart := rfl
@[simp] theorem retirePrimitive_startLatched (r : Run) (x : Response) (s : State) : (retirePrimitive r x s).startLatched = s.startLatched := rfl
@[simp] theorem retirePrimitive_cap (r : Run) (x : Response) (s : State) : (retirePrimitive r x s).cap = s.cap := rfl
@[simp] theorem retirePrimitive_seq (r : Run) (x : Response) (s : State) : (retirePrimitive r x s).seq = .idle := rfl
@[simp] theorem retirePrimitive_trace (r : Run) (x : Response) (s : State) : (retirePrimitive r x s).trace = s.trace := rfl
@[simp] theorem retirePrimitive_mainPort (r : Run) (x : Response) (s : State) : (retirePrimitive r x s).mainPort = s.mainPort := rfl
@[simp] theorem retirePrimitive_handlerPort (r : Run) (x : Response) (s : State) : (retirePrimitive r x s).handlerPort = s.handlerPort := rfl
@[simp] theorem retirePrimitive_sched (r : Run) (x : Response) (s : State) : (retirePrimitive r x s).sched = s.sched := rfl
@[simp] theorem retirePrimitive_moves (r : Run) (x : Response) (s : State) : (retirePrimitive r x s).moves = s.moves := rfl
@[simp] theorem retirePrimitive_draws (r : Run) (x : Response) (s : State) : (retirePrimitive r x s).draws = s.draws := rfl
@[simp] theorem retirePrimitive_issuer (r : Run) (x : Response) (s : State) : (retirePrimitive r x s).issuer = s.issuer := rfl
@[simp] theorem retirePrimitive_responses (r : Run) (x : Response) (s : State) : (retirePrimitive r x s).responses = s.responses ++ [(r.owner, x)] := rfl

@[simp] theorem finishTxn_cfg (r : Run) (v : Word) (s : State) : (finishTxn r v s).cfg = s.cfg := rfl
@[simp] theorem finishTxn_ctrlInt (r : Run) (v : Word) (s : State) : (finishTxn r v s).ctrlInt = s.ctrlInt := rfl
@[simp] theorem finishTxn_ctrlEa (r : Run) (v : Word) (s : State) : (finishTxn r v s).ctrlEa = s.ctrlEa := rfl
@[simp] theorem finishTxn_ctrlSta (r : Run) (v : Word) (s : State) : (finishTxn r v s).ctrlSta = s.ctrlSta := rfl
@[simp] theorem finishTxn_ctrlEn (r : Run) (v : Word) (s : State) : (finishTxn r v s).ctrlEn = s.ctrlEn := rfl
@[simp] theorem finishTxn_data (r : Run) (v : Word) (s : State) : (finishTxn r v s).data = s.data := rfl
@[simp] theorem finishTxn_code (r : Run) (v : Word) (s : State) : (finishTxn r v s).code = s.code := rfl
@[simp] theorem finishTxn_stepCtr (r : Run) (v : Word) (s : State) : (finishTxn r v s).stepCtr = s.stepCtr := rfl
@[simp] theorem finishTxn_last (r : Run) (v : Word) (s : State) : (finishTxn r v s).last = s.last := rfl
@[simp] theorem finishTxn_result (r : Run) (v : Word) (s : State) : (finishTxn r v s).result = v := rfl
@[simp] theorem finishTxn_fault (r : Run) (v : Word) (s : State) : (finishTxn r v s).fault = s.fault := rfl
@[simp] theorem finishTxn_pend (r : Run) (v : Word) (s : State) : (finishTxn r v s).pend = s.pend := rfl
@[simp] theorem finishTxn_owned (r : Run) (v : Word) (s : State) : (finishTxn r v s).owned = s.owned := rfl
@[simp] theorem finishTxn_afterStart (r : Run) (v : Word) (s : State) : (finishTxn r v s).afterStart = s.afterStart := rfl
@[simp] theorem finishTxn_startLatched (r : Run) (v : Word) (s : State) : (finishTxn r v s).startLatched = s.startLatched := rfl
@[simp] theorem finishTxn_cap (r : Run) (v : Word) (s : State) : (finishTxn r v s).cap = s.cap := rfl
@[simp] theorem finishTxn_seq (r : Run) (v : Word) (s : State) : (finishTxn r v s).seq = .idle := rfl
@[simp] theorem finishTxn_trace (r : Run) (v : Word) (s : State) : (finishTxn r v s).trace = s.trace := rfl
@[simp] theorem finishTxn_mainPort (r : Run) (v : Word) (s : State) : (finishTxn r v s).mainPort = s.mainPort := rfl
@[simp] theorem finishTxn_handlerPort (r : Run) (v : Word) (s : State) : (finishTxn r v s).handlerPort = s.handlerPort := rfl
@[simp] theorem finishTxn_sched (r : Run) (v : Word) (s : State) : (finishTxn r v s).sched = s.sched := rfl
@[simp] theorem finishTxn_moves (r : Run) (v : Word) (s : State) : (finishTxn r v s).moves = s.moves := rfl
@[simp] theorem finishTxn_draws (r : Run) (v : Word) (s : State) : (finishTxn r v s).draws = s.draws := rfl
@[simp] theorem finishTxn_issuer (r : Run) (v : Word) (s : State) : (finishTxn r v s).issuer = s.issuer := rfl
@[simp] theorem finishTxn_responses (r : Run) (v : Word) (s : State) : (finishTxn r v s).responses = s.responses ++ [(r.owner, .result v)] := rfl

@[simp] theorem recordLast_cfg (r : Run) (s : State) : (recordLast r s).cfg = s.cfg := rfl
@[simp] theorem recordLast_ctrlInt (r : Run) (s : State) : (recordLast r s).ctrlInt = s.ctrlInt := rfl
@[simp] theorem recordLast_ctrlEa (r : Run) (s : State) : (recordLast r s).ctrlEa = s.ctrlEa := rfl
@[simp] theorem recordLast_ctrlSta (r : Run) (s : State) : (recordLast r s).ctrlSta = s.ctrlSta := rfl
@[simp] theorem recordLast_ctrlEn (r : Run) (s : State) : (recordLast r s).ctrlEn = s.ctrlEn := rfl
@[simp] theorem recordLast_data (r : Run) (s : State) : (recordLast r s).data = s.data := rfl
@[simp] theorem recordLast_code (r : Run) (s : State) : (recordLast r s).code = s.code := rfl
@[simp] theorem recordLast_stepCtr (r : Run) (s : State) : (recordLast r s).stepCtr = s.stepCtr := rfl
@[simp] theorem recordLast_last (r : Run) (s : State) : (recordLast r s).last = if recordsByte r then s.data else s.last := rfl
@[simp] theorem recordLast_result (r : Run) (s : State) : (recordLast r s).result = s.result := rfl
@[simp] theorem recordLast_fault (r : Run) (s : State) : (recordLast r s).fault = s.fault := rfl
@[simp] theorem recordLast_pend (r : Run) (s : State) : (recordLast r s).pend = s.pend := rfl
@[simp] theorem recordLast_owned (r : Run) (s : State) : (recordLast r s).owned = s.owned := rfl
@[simp] theorem recordLast_afterStart (r : Run) (s : State) : (recordLast r s).afterStart = s.afterStart := rfl
@[simp] theorem recordLast_startLatched (r : Run) (s : State) : (recordLast r s).startLatched = s.startLatched := rfl
@[simp] theorem recordLast_cap (r : Run) (s : State) : (recordLast r s).cap = s.cap := rfl
@[simp] theorem recordLast_seq (r : Run) (s : State) : (recordLast r s).seq = s.seq := rfl
@[simp] theorem recordLast_trace (r : Run) (s : State) : (recordLast r s).trace = s.trace := rfl
@[simp] theorem recordLast_mainPort (r : Run) (s : State) : (recordLast r s).mainPort = s.mainPort := rfl
@[simp] theorem recordLast_handlerPort (r : Run) (s : State) : (recordLast r s).handlerPort = s.handlerPort := rfl
@[simp] theorem recordLast_sched (r : Run) (s : State) : (recordLast r s).sched = s.sched := rfl
@[simp] theorem recordLast_moves (r : Run) (s : State) : (recordLast r s).moves = s.moves := rfl
@[simp] theorem recordLast_draws (r : Run) (s : State) : (recordLast r s).draws = s.draws := rfl
@[simp] theorem recordLast_issuer (r : Run) (s : State) : (recordLast r s).issuer = s.issuer := rfl
@[simp] theorem recordLast_responses (r : Run) (s : State) : (recordLast r s).responses = s.responses := rfl

@[simp] theorem finishEvent_cfg (v : Byte) (s : State) : (finishEvent v s).cfg = s.cfg := rfl
@[simp] theorem finishEvent_ctrlInt (v : Byte) (s : State) : (finishEvent v s).ctrlInt = s.ctrlInt := rfl
@[simp] theorem finishEvent_ctrlEa (v : Byte) (s : State) : (finishEvent v s).ctrlEa = s.ctrlEa := rfl
@[simp] theorem finishEvent_ctrlSta (v : Byte) (s : State) : (finishEvent v s).ctrlSta = s.ctrlSta := rfl
@[simp] theorem finishEvent_ctrlEn (v : Byte) (s : State) : (finishEvent v s).ctrlEn = s.ctrlEn := rfl
@[simp] theorem finishEvent_data (v : Byte) (s : State) : (finishEvent v s).data = s.data := rfl
@[simp] theorem finishEvent_code (v : Byte) (s : State) : (finishEvent v s).code = s.code := rfl
@[simp] theorem finishEvent_stepCtr (v : Byte) (s : State) : (finishEvent v s).stepCtr = v := rfl
@[simp] theorem finishEvent_last (v : Byte) (s : State) : (finishEvent v s).last = s.last := rfl
@[simp] theorem finishEvent_result (v : Byte) (s : State) : (finishEvent v s).result = s.result := rfl
@[simp] theorem finishEvent_fault (v : Byte) (s : State) : (finishEvent v s).fault = s.fault := rfl
@[simp] theorem finishEvent_pend (v : Byte) (s : State) : (finishEvent v s).pend = s.pend := rfl
@[simp] theorem finishEvent_owned (v : Byte) (s : State) : (finishEvent v s).owned = s.owned := rfl
@[simp] theorem finishEvent_afterStart (v : Byte) (s : State) : (finishEvent v s).afterStart = s.afterStart := rfl
@[simp] theorem finishEvent_startLatched (v : Byte) (s : State) : (finishEvent v s).startLatched = s.startLatched := rfl
@[simp] theorem finishEvent_cap (v : Byte) (s : State) : (finishEvent v s).cap = s.cap := rfl
@[simp] theorem finishEvent_seq (v : Byte) (s : State) : (finishEvent v s).seq = s.seq := rfl
@[simp] theorem finishEvent_trace (v : Byte) (s : State) : (finishEvent v s).trace = s.trace := rfl
@[simp] theorem finishEvent_mainPort (v : Byte) (s : State) : (finishEvent v s).mainPort = s.mainPort := rfl
@[simp] theorem finishEvent_handlerPort (v : Byte) (s : State) : (finishEvent v s).handlerPort = s.handlerPort := rfl
@[simp] theorem finishEvent_sched (v : Byte) (s : State) : (finishEvent v s).sched = s.sched := rfl
@[simp] theorem finishEvent_moves (v : Byte) (s : State) : (finishEvent v s).moves = s.moves := rfl
@[simp] theorem finishEvent_draws (v : Byte) (s : State) : (finishEvent v s).draws = s.draws := rfl
@[simp] theorem finishEvent_issuer (v : Byte) (s : State) : (finishEvent v s).issuer = s.issuer := rfl
@[simp] theorem finishEvent_responses (v : Byte) (s : State) : (finishEvent v s).responses = s.responses ++ [(s.issuer, .nothing)] := rfl

@[simp] theorem finishOp_cfg (s : State) : (finishOp s).cfg = s.cfg := rfl
@[simp] theorem finishOp_ctrlInt (s : State) : (finishOp s).ctrlInt = true := rfl
@[simp] theorem finishOp_ctrlEa (s : State) : (finishOp s).ctrlEa = s.ctrlEa := rfl
@[simp] theorem finishOp_ctrlSta (s : State) : (finishOp s).ctrlSta = s.ctrlSta := rfl
@[simp] theorem finishOp_ctrlEn (s : State) : (finishOp s).ctrlEn = s.ctrlEn := rfl
@[simp] theorem finishOp_data (s : State) : (finishOp s).data = s.data := rfl
@[simp] theorem finishOp_code (s : State) : (finishOp s).code = s.code := rfl
@[simp] theorem finishOp_stepCtr (s : State) : (finishOp s).stepCtr = s.stepCtr := rfl
@[simp] theorem finishOp_last (s : State) : (finishOp s).last = s.last := rfl
@[simp] theorem finishOp_result (s : State) : (finishOp s).result = s.result := rfl
@[simp] theorem finishOp_fault (s : State) : (finishOp s).fault = s.fault := rfl
@[simp] theorem finishOp_pend (s : State) : (finishOp s).pend = none := rfl
@[simp] theorem finishOp_owned (s : State) : (finishOp s).owned = s.owned := rfl
@[simp] theorem finishOp_afterStart (s : State) : (finishOp s).afterStart = s.afterStart := rfl
@[simp] theorem finishOp_startLatched (s : State) : (finishOp s).startLatched = s.startLatched := rfl
@[simp] theorem finishOp_cap (s : State) : (finishOp s).cap = s.cap := rfl
@[simp] theorem finishOp_seq (s : State) : (finishOp s).seq = s.seq := rfl
@[simp] theorem finishOp_trace (s : State) : (finishOp s).trace = s.trace := rfl
@[simp] theorem finishOp_mainPort (s : State) : (finishOp s).mainPort = s.mainPort := rfl
@[simp] theorem finishOp_handlerPort (s : State) : (finishOp s).handlerPort = s.handlerPort := rfl
@[simp] theorem finishOp_sched (s : State) : (finishOp s).sched = s.sched := rfl
@[simp] theorem finishOp_moves (s : State) : (finishOp s).moves = s.moves := rfl
@[simp] theorem finishOp_draws (s : State) : (finishOp s).draws = s.draws := rfl
@[simp] theorem finishOp_issuer (s : State) : (finishOp s).issuer = s.issuer := rfl
@[simp] theorem finishOp_responses (s : State) : (finishOp s).responses = s.responses := rfl

@[simp] theorem setPort_cfg (c : Ctx) (ws : List Word) (s : State) : (setPort c ws s).cfg = s.cfg := by cases c <;> rfl
@[simp] theorem setPort_ctrlInt (c : Ctx) (ws : List Word) (s : State) : (setPort c ws s).ctrlInt = s.ctrlInt := by cases c <;> rfl
@[simp] theorem setPort_ctrlEa (c : Ctx) (ws : List Word) (s : State) : (setPort c ws s).ctrlEa = s.ctrlEa := by cases c <;> rfl
@[simp] theorem setPort_ctrlSta (c : Ctx) (ws : List Word) (s : State) : (setPort c ws s).ctrlSta = s.ctrlSta := by cases c <;> rfl
@[simp] theorem setPort_ctrlEn (c : Ctx) (ws : List Word) (s : State) : (setPort c ws s).ctrlEn = s.ctrlEn := by cases c <;> rfl
@[simp] theorem setPort_data (c : Ctx) (ws : List Word) (s : State) : (setPort c ws s).data = s.data := by cases c <;> rfl
@[simp] theorem setPort_code (c : Ctx) (ws : List Word) (s : State) : (setPort c ws s).code = s.code := by cases c <;> rfl
@[simp] theorem setPort_stepCtr (c : Ctx) (ws : List Word) (s : State) : (setPort c ws s).stepCtr = s.stepCtr := by cases c <;> rfl
@[simp] theorem setPort_last (c : Ctx) (ws : List Word) (s : State) : (setPort c ws s).last = s.last := by cases c <;> rfl
@[simp] theorem setPort_result (c : Ctx) (ws : List Word) (s : State) : (setPort c ws s).result = s.result := by cases c <;> rfl
@[simp] theorem setPort_fault (c : Ctx) (ws : List Word) (s : State) : (setPort c ws s).fault = s.fault := by cases c <;> rfl
@[simp] theorem setPort_pend (c : Ctx) (ws : List Word) (s : State) : (setPort c ws s).pend = s.pend := by cases c <;> rfl
@[simp] theorem setPort_owned (c : Ctx) (ws : List Word) (s : State) : (setPort c ws s).owned = s.owned := by cases c <;> rfl
@[simp] theorem setPort_afterStart (c : Ctx) (ws : List Word) (s : State) : (setPort c ws s).afterStart = s.afterStart := by cases c <;> rfl
@[simp] theorem setPort_startLatched (c : Ctx) (ws : List Word) (s : State) : (setPort c ws s).startLatched = s.startLatched := by cases c <;> rfl
@[simp] theorem setPort_cap (c : Ctx) (ws : List Word) (s : State) : (setPort c ws s).cap = s.cap := by cases c <;> rfl
@[simp] theorem setPort_seq (c : Ctx) (ws : List Word) (s : State) : (setPort c ws s).seq = s.seq := by cases c <;> rfl
@[simp] theorem setPort_trace (c : Ctx) (ws : List Word) (s : State) : (setPort c ws s).trace = s.trace := by cases c <;> rfl
@[simp] theorem setPort_sched (c : Ctx) (ws : List Word) (s : State) : (setPort c ws s).sched = s.sched := by cases c <;> rfl
@[simp] theorem setPort_moves (c : Ctx) (ws : List Word) (s : State) : (setPort c ws s).moves = s.moves := by cases c <;> rfl
@[simp] theorem setPort_draws (c : Ctx) (ws : List Word) (s : State) : (setPort c ws s).draws = s.draws := by cases c <;> rfl
@[simp] theorem setPort_issuer (c : Ctx) (ws : List Word) (s : State) : (setPort c ws s).issuer = s.issuer := by cases c <;> rfl
@[simp] theorem setPort_responses (c : Ctx) (ws : List Word) (s : State) : (setPort c ws s).responses = s.responses := by cases c <;> rfl

@[simp] theorem atPort_cfg (c : Ctx) (ws : List Word) (s : State) : (atPort c ws s).cfg = s.cfg := by cases c <;> rfl
@[simp] theorem atPort_ctrlInt (c : Ctx) (ws : List Word) (s : State) : (atPort c ws s).ctrlInt = s.ctrlInt := by cases c <;> rfl
@[simp] theorem atPort_ctrlEa (c : Ctx) (ws : List Word) (s : State) : (atPort c ws s).ctrlEa = s.ctrlEa := by cases c <;> rfl
@[simp] theorem atPort_ctrlSta (c : Ctx) (ws : List Word) (s : State) : (atPort c ws s).ctrlSta = s.ctrlSta := by cases c <;> rfl
@[simp] theorem atPort_ctrlEn (c : Ctx) (ws : List Word) (s : State) : (atPort c ws s).ctrlEn = s.ctrlEn := by cases c <;> rfl
@[simp] theorem atPort_data (c : Ctx) (ws : List Word) (s : State) : (atPort c ws s).data = s.data := by cases c <;> rfl
@[simp] theorem atPort_code (c : Ctx) (ws : List Word) (s : State) : (atPort c ws s).code = s.code := by cases c <;> rfl
@[simp] theorem atPort_stepCtr (c : Ctx) (ws : List Word) (s : State) : (atPort c ws s).stepCtr = s.stepCtr := by cases c <;> rfl
@[simp] theorem atPort_last (c : Ctx) (ws : List Word) (s : State) : (atPort c ws s).last = s.last := by cases c <;> rfl
@[simp] theorem atPort_result (c : Ctx) (ws : List Word) (s : State) : (atPort c ws s).result = s.result := by cases c <;> rfl
@[simp] theorem atPort_fault (c : Ctx) (ws : List Word) (s : State) : (atPort c ws s).fault = s.fault := by cases c <;> rfl
@[simp] theorem atPort_pend (c : Ctx) (ws : List Word) (s : State) : (atPort c ws s).pend = s.pend := by cases c <;> rfl
@[simp] theorem atPort_owned (c : Ctx) (ws : List Word) (s : State) : (atPort c ws s).owned = s.owned := by cases c <;> rfl
@[simp] theorem atPort_afterStart (c : Ctx) (ws : List Word) (s : State) : (atPort c ws s).afterStart = s.afterStart := by cases c <;> rfl
@[simp] theorem atPort_startLatched (c : Ctx) (ws : List Word) (s : State) : (atPort c ws s).startLatched = s.startLatched := by cases c <;> rfl
@[simp] theorem atPort_cap (c : Ctx) (ws : List Word) (s : State) : (atPort c ws s).cap = s.cap := by cases c <;> rfl
@[simp] theorem atPort_seq (c : Ctx) (ws : List Word) (s : State) : (atPort c ws s).seq = s.seq := by cases c <;> rfl
@[simp] theorem atPort_trace (c : Ctx) (ws : List Word) (s : State) : (atPort c ws s).trace = s.trace := by cases c <;> rfl
@[simp] theorem atPort_sched (c : Ctx) (ws : List Word) (s : State) : (atPort c ws s).sched = s.sched := by cases c <;> rfl
@[simp] theorem atPort_moves (c : Ctx) (ws : List Word) (s : State) : (atPort c ws s).moves = s.moves := by cases c <;> rfl
@[simp] theorem atPort_draws (c : Ctx) (ws : List Word) (s : State) : (atPort c ws s).draws = s.draws := by cases c <;> rfl
@[simp] theorem atPort_issuer (c : Ctx) (ws : List Word) (s : State) : (atPort c ws s).issuer = c := rfl
@[simp] theorem atPort_responses (c : Ctx) (ws : List Word) (s : State) : (atPort c ws s).responses = s.responses := by cases c <;> rfl

@[simp] theorem takeMove_cfg (s : State) : (takeMove s).2.cfg = s.cfg := by unfold takeMove; split <;> rfl
@[simp] theorem takeMove_ctrlInt (s : State) : (takeMove s).2.ctrlInt = s.ctrlInt := by unfold takeMove; split <;> rfl
@[simp] theorem takeMove_ctrlEa (s : State) : (takeMove s).2.ctrlEa = s.ctrlEa := by unfold takeMove; split <;> rfl
@[simp] theorem takeMove_ctrlSta (s : State) : (takeMove s).2.ctrlSta = s.ctrlSta := by unfold takeMove; split <;> rfl
@[simp] theorem takeMove_ctrlEn (s : State) : (takeMove s).2.ctrlEn = s.ctrlEn := by unfold takeMove; split <;> rfl
@[simp] theorem takeMove_data (s : State) : (takeMove s).2.data = s.data := by unfold takeMove; split <;> rfl
@[simp] theorem takeMove_code (s : State) : (takeMove s).2.code = s.code := by unfold takeMove; split <;> rfl
@[simp] theorem takeMove_stepCtr (s : State) : (takeMove s).2.stepCtr = s.stepCtr := by unfold takeMove; split <;> rfl
@[simp] theorem takeMove_last (s : State) : (takeMove s).2.last = s.last := by unfold takeMove; split <;> rfl
@[simp] theorem takeMove_result (s : State) : (takeMove s).2.result = s.result := by unfold takeMove; split <;> rfl
@[simp] theorem takeMove_fault (s : State) : (takeMove s).2.fault = s.fault := by unfold takeMove; split <;> rfl
@[simp] theorem takeMove_pend (s : State) : (takeMove s).2.pend = s.pend := by unfold takeMove; split <;> rfl
@[simp] theorem takeMove_owned (s : State) : (takeMove s).2.owned = s.owned := by unfold takeMove; split <;> rfl
@[simp] theorem takeMove_afterStart (s : State) : (takeMove s).2.afterStart = s.afterStart := by unfold takeMove; split <;> rfl
@[simp] theorem takeMove_startLatched (s : State) : (takeMove s).2.startLatched = s.startLatched := by unfold takeMove; split <;> rfl
@[simp] theorem takeMove_cap (s : State) : (takeMove s).2.cap = s.cap := by unfold takeMove; split <;> rfl
@[simp] theorem takeMove_seq (s : State) : (takeMove s).2.seq = s.seq := by unfold takeMove; split <;> rfl
@[simp] theorem takeMove_trace (s : State) : (takeMove s).2.trace = s.trace := by unfold takeMove; split <;> rfl
@[simp] theorem takeMove_mainPort (s : State) : (takeMove s).2.mainPort = s.mainPort := by unfold takeMove; split <;> rfl
@[simp] theorem takeMove_handlerPort (s : State) : (takeMove s).2.handlerPort = s.handlerPort := by unfold takeMove; split <;> rfl
@[simp] theorem takeMove_draws (s : State) : (takeMove s).2.draws = s.draws := by unfold takeMove; split <;> rfl
@[simp] theorem takeMove_issuer (s : State) : (takeMove s).2.issuer = s.issuer := by unfold takeMove; split <;> rfl
@[simp] theorem takeMove_responses (s : State) : (takeMove s).2.responses = s.responses := by unfold takeMove; split <;> rfl

theorem capture_eq (v : Byte) (s : State) :
    capture v s = { s with last := if s.cap then v else s.last, cap := false } := by
  cases s with
  | mk _ _ _ _ _ _ _ _ _ _ _ _ _ _ _ cap => cases cap <;> rfl

@[simp] theorem capture_cfg (v : Byte) (s : State) : (capture v s).cfg = s.cfg := by rw [capture_eq]
@[simp] theorem capture_ctrlInt (v : Byte) (s : State) : (capture v s).ctrlInt = s.ctrlInt := by rw [capture_eq]
@[simp] theorem capture_ctrlEa (v : Byte) (s : State) : (capture v s).ctrlEa = s.ctrlEa := by rw [capture_eq]
@[simp] theorem capture_ctrlSta (v : Byte) (s : State) : (capture v s).ctrlSta = s.ctrlSta := by rw [capture_eq]
@[simp] theorem capture_ctrlEn (v : Byte) (s : State) : (capture v s).ctrlEn = s.ctrlEn := by rw [capture_eq]
@[simp] theorem capture_data (v : Byte) (s : State) : (capture v s).data = s.data := by rw [capture_eq]
@[simp] theorem capture_code (v : Byte) (s : State) : (capture v s).code = s.code := by rw [capture_eq]
@[simp] theorem capture_stepCtr (v : Byte) (s : State) : (capture v s).stepCtr = s.stepCtr := by rw [capture_eq]
@[simp] theorem capture_result (v : Byte) (s : State) : (capture v s).result = s.result := by rw [capture_eq]
@[simp] theorem capture_fault (v : Byte) (s : State) : (capture v s).fault = s.fault := by rw [capture_eq]
@[simp] theorem capture_pend (v : Byte) (s : State) : (capture v s).pend = s.pend := by rw [capture_eq]
@[simp] theorem capture_owned (v : Byte) (s : State) : (capture v s).owned = s.owned := by rw [capture_eq]
@[simp] theorem capture_afterStart (v : Byte) (s : State) : (capture v s).afterStart = s.afterStart := by rw [capture_eq]
@[simp] theorem capture_startLatched (v : Byte) (s : State) : (capture v s).startLatched = s.startLatched := by rw [capture_eq]
@[simp] theorem capture_seq (v : Byte) (s : State) : (capture v s).seq = s.seq := by rw [capture_eq]
@[simp] theorem capture_trace (v : Byte) (s : State) : (capture v s).trace = s.trace := by rw [capture_eq]
@[simp] theorem capture_mainPort (v : Byte) (s : State) : (capture v s).mainPort = s.mainPort := by rw [capture_eq]
@[simp] theorem capture_handlerPort (v : Byte) (s : State) : (capture v s).handlerPort = s.handlerPort := by rw [capture_eq]
@[simp] theorem capture_sched (v : Byte) (s : State) : (capture v s).sched = s.sched := by rw [capture_eq]
@[simp] theorem capture_moves (v : Byte) (s : State) : (capture v s).moves = s.moves := by rw [capture_eq]
@[simp] theorem capture_draws (v : Byte) (s : State) : (capture v s).draws = s.draws := by rw [capture_eq]
@[simp] theorem capture_issuer (v : Byte) (s : State) : (capture v s).issuer = s.issuer := by rw [capture_eq]
@[simp] theorem capture_responses (v : Byte) (s : State) : (capture v s).responses = s.responses := by rw [capture_eq]

@[simp] theorem completeTx_cfg (a : Ack) (s : State) : (completeTx a s).cfg = s.cfg := by unfold completeTx; split <;> rfl
@[simp] theorem completeTx_ctrlEa (a : Ack) (s : State) : (completeTx a s).ctrlEa = s.ctrlEa := by unfold completeTx; split <;> rfl
@[simp] theorem completeTx_ctrlSta (a : Ack) (s : State) : (completeTx a s).ctrlSta = s.ctrlSta := by unfold completeTx; split <;> rfl
@[simp] theorem completeTx_ctrlEn (a : Ack) (s : State) : (completeTx a s).ctrlEn = s.ctrlEn := by unfold completeTx; split <;> rfl
@[simp] theorem completeTx_data (a : Ack) (s : State) : (completeTx a s).data = s.data := by unfold completeTx; split <;> rfl
@[simp] theorem completeTx_stepCtr (a : Ack) (s : State) : (completeTx a s).stepCtr = s.stepCtr := by unfold completeTx; split <;> rfl
@[simp] theorem completeTx_last (a : Ack) (s : State) : (completeTx a s).last = s.last := by unfold completeTx; split <;> rfl
@[simp] theorem completeTx_result (a : Ack) (s : State) : (completeTx a s).result = s.result := by unfold completeTx; split <;> rfl
@[simp] theorem completeTx_fault (a : Ack) (s : State) : (completeTx a s).fault = s.fault := by unfold completeTx; split <;> rfl
@[simp] theorem completeTx_owned (a : Ack) (s : State) : (completeTx a s).owned = s.owned := by unfold completeTx; split <;> rfl
@[simp] theorem completeTx_startLatched (a : Ack) (s : State) : (completeTx a s).startLatched = s.startLatched := by unfold completeTx; split <;> rfl
@[simp] theorem completeTx_cap (a : Ack) (s : State) : (completeTx a s).cap = s.cap := by unfold completeTx; split <;> rfl
@[simp] theorem completeTx_seq (a : Ack) (s : State) : (completeTx a s).seq = s.seq := by unfold completeTx; split <;> rfl
@[simp] theorem completeTx_mainPort (a : Ack) (s : State) : (completeTx a s).mainPort = s.mainPort := by unfold completeTx; split <;> rfl
@[simp] theorem completeTx_handlerPort (a : Ack) (s : State) : (completeTx a s).handlerPort = s.handlerPort := by unfold completeTx; split <;> rfl
@[simp] theorem completeTx_sched (a : Ack) (s : State) : (completeTx a s).sched = s.sched := by unfold completeTx; split <;> rfl
@[simp] theorem completeTx_moves (a : Ack) (s : State) : (completeTx a s).moves = s.moves := by unfold completeTx; split <;> rfl
@[simp] theorem completeTx_draws (a : Ack) (s : State) : (completeTx a s).draws = s.draws := by unfold completeTx; split <;> rfl
@[simp] theorem completeTx_issuer (a : Ack) (s : State) : (completeTx a s).issuer = s.issuer := by unfold completeTx; split <;> rfl
@[simp] theorem completeTx_responses (a : Ack) (s : State) : (completeTx a s).responses = s.responses := by unfold completeTx; split <;> rfl

@[simp] theorem completeRx_cfg (a : Ack) (v : Byte) (s : State) : (completeRx a v s).cfg = s.cfg := by simp [completeRx]
@[simp] theorem completeRx_ctrlEa (a : Ack) (v : Byte) (s : State) : (completeRx a v s).ctrlEa = s.ctrlEa := by simp [completeRx]
@[simp] theorem completeRx_ctrlSta (a : Ack) (v : Byte) (s : State) : (completeRx a v s).ctrlSta = s.ctrlSta := by simp [completeRx]
@[simp] theorem completeRx_ctrlEn (a : Ack) (v : Byte) (s : State) : (completeRx a v s).ctrlEn = s.ctrlEn := by simp [completeRx]
@[simp] theorem completeRx_stepCtr (a : Ack) (v : Byte) (s : State) : (completeRx a v s).stepCtr = s.stepCtr := by simp [completeRx]
@[simp] theorem completeRx_result (a : Ack) (v : Byte) (s : State) : (completeRx a v s).result = s.result := by simp [completeRx]
@[simp] theorem completeRx_fault (a : Ack) (v : Byte) (s : State) : (completeRx a v s).fault = s.fault := by simp [completeRx]
@[simp] theorem completeRx_owned (a : Ack) (v : Byte) (s : State) : (completeRx a v s).owned = s.owned := by simp [completeRx]
@[simp] theorem completeRx_afterStart (a : Ack) (v : Byte) (s : State) : (completeRx a v s).afterStart = s.afterStart := by simp [completeRx]
@[simp] theorem completeRx_startLatched (a : Ack) (v : Byte) (s : State) : (completeRx a v s).startLatched = s.startLatched := by simp [completeRx]
@[simp] theorem completeRx_seq (a : Ack) (v : Byte) (s : State) : (completeRx a v s).seq = s.seq := by simp [completeRx]
@[simp] theorem completeRx_mainPort (a : Ack) (v : Byte) (s : State) : (completeRx a v s).mainPort = s.mainPort := by simp [completeRx]
@[simp] theorem completeRx_handlerPort (a : Ack) (v : Byte) (s : State) : (completeRx a v s).handlerPort = s.handlerPort := by simp [completeRx]
@[simp] theorem completeRx_sched (a : Ack) (v : Byte) (s : State) : (completeRx a v s).sched = s.sched := by simp [completeRx]
@[simp] theorem completeRx_moves (a : Ack) (v : Byte) (s : State) : (completeRx a v s).moves = s.moves := by simp [completeRx]
@[simp] theorem completeRx_draws (a : Ack) (v : Byte) (s : State) : (completeRx a v s).draws = s.draws := by simp [completeRx]
@[simp] theorem completeRx_issuer (a : Ack) (v : Byte) (s : State) : (completeRx a v s).issuer = s.issuer := by simp [completeRx]
@[simp] theorem completeRx_responses (a : Ack) (v : Byte) (s : State) : (completeRx a v s).responses = s.responses := by simp [completeRx]

@[simp] theorem complete_cfg (op : BusOp) (a : Answer) (s : State) : (complete op a s).cfg = s.cfg := by
  unfold complete; split <;> [rfl; simp; simp; (split <;> rfl)]
@[simp] theorem complete_ctrlEa (op : BusOp) (a : Answer) (s : State) : (complete op a s).ctrlEa = s.ctrlEa := by
  unfold complete; split <;> [rfl; simp; simp; (split <;> rfl)]
@[simp] theorem complete_ctrlSta (op : BusOp) (a : Answer) (s : State) : (complete op a s).ctrlSta = s.ctrlSta := by
  unfold complete; split <;> [rfl; simp; simp; (split <;> rfl)]
@[simp] theorem complete_ctrlEn (op : BusOp) (a : Answer) (s : State) : (complete op a s).ctrlEn = s.ctrlEn := by
  unfold complete; split <;> [rfl; simp; simp; (split <;> rfl)]
@[simp] theorem complete_stepCtr (op : BusOp) (a : Answer) (s : State) : (complete op a s).stepCtr = s.stepCtr := by
  unfold complete; split <;> [rfl; simp; simp; (split <;> rfl)]
@[simp] theorem complete_result (op : BusOp) (a : Answer) (s : State) : (complete op a s).result = s.result := by
  unfold complete; split <;> [rfl; simp; simp; (split <;> rfl)]
@[simp] theorem complete_fault (op : BusOp) (a : Answer) (s : State) : (complete op a s).fault = s.fault := by
  unfold complete; split <;> [rfl; simp; simp; (split <;> rfl)]
@[simp] theorem complete_seq (op : BusOp) (a : Answer) (s : State) : (complete op a s).seq = s.seq := by
  unfold complete; split <;> [rfl; simp; simp; (split <;> rfl)]
@[simp] theorem complete_mainPort (op : BusOp) (a : Answer) (s : State) : (complete op a s).mainPort = s.mainPort := by
  unfold complete; split <;> [rfl; simp; simp; (split <;> rfl)]
@[simp] theorem complete_handlerPort (op : BusOp) (a : Answer) (s : State) : (complete op a s).handlerPort = s.handlerPort := by
  unfold complete; split <;> [rfl; simp; simp; (split <;> rfl)]
@[simp] theorem complete_sched (op : BusOp) (a : Answer) (s : State) : (complete op a s).sched = s.sched := by
  unfold complete; split <;> [rfl; simp; simp; (split <;> rfl)]
@[simp] theorem complete_moves (op : BusOp) (a : Answer) (s : State) : (complete op a s).moves = s.moves := by
  unfold complete; split <;> [rfl; simp; simp; (split <;> rfl)]
@[simp] theorem complete_draws (op : BusOp) (a : Answer) (s : State) : (complete op a s).draws = s.draws := by
  unfold complete; split <;> [rfl; simp; simp; (split <;> rfl)]
@[simp] theorem complete_issuer (op : BusOp) (a : Answer) (s : State) : (complete op a s).issuer = s.issuer := by
  unfold complete; split <;> [rfl; simp; simp; (split <;> rfl)]
@[simp] theorem complete_responses (op : BusOp) (a : Answer) (s : State) : (complete op a s).responses = s.responses := by
  unfold complete; split <;> [rfl; simp; simp; (split <;> rfl)]

@[simp] theorem retireAtStop_cfg (r : Run) (s : State) : (retireAtStop r s).cfg = s.cfg := by
  unfold retireAtStop; split <;> [(split <;> rfl); rfl; rfl; rfl; rfl; rfl]
@[simp] theorem retireAtStop_ctrlInt (r : Run) (s : State) : (retireAtStop r s).ctrlInt = s.ctrlInt := by
  unfold retireAtStop; split <;> [(split <;> rfl); rfl; rfl; rfl; rfl; rfl]
@[simp] theorem retireAtStop_ctrlEa (r : Run) (s : State) : (retireAtStop r s).ctrlEa = s.ctrlEa := by
  unfold retireAtStop; split <;> [(split <;> rfl); rfl; rfl; rfl; rfl; rfl]
@[simp] theorem retireAtStop_ctrlSta (r : Run) (s : State) : (retireAtStop r s).ctrlSta = s.ctrlSta := by
  unfold retireAtStop; split <;> [(split <;> rfl); rfl; rfl; rfl; rfl; rfl]
@[simp] theorem retireAtStop_ctrlEn (r : Run) (s : State) : (retireAtStop r s).ctrlEn = s.ctrlEn := by
  unfold retireAtStop; split <;> [(split <;> rfl); rfl; rfl; rfl; rfl; rfl]
@[simp] theorem retireAtStop_data (r : Run) (s : State) : (retireAtStop r s).data = s.data := by
  unfold retireAtStop; split <;> [(split <;> rfl); rfl; rfl; rfl; rfl; rfl]
@[simp] theorem retireAtStop_code (r : Run) (s : State) : (retireAtStop r s).code = s.code := by
  unfold retireAtStop; split <;> [(split <;> rfl); rfl; rfl; rfl; rfl; rfl]
@[simp] theorem retireAtStop_stepCtr (r : Run) (s : State) : (retireAtStop r s).stepCtr = s.stepCtr := by
  unfold retireAtStop; split <;> [(split <;> rfl); rfl; rfl; rfl; rfl; rfl]
@[simp] theorem retireAtStop_last (r : Run) (s : State) : (retireAtStop r s).last = s.last := by
  unfold retireAtStop; split <;> [(split <;> rfl); rfl; rfl; rfl; rfl; rfl]
@[simp] theorem retireAtStop_fault (r : Run) (s : State) : (retireAtStop r s).fault = s.fault := by
  unfold retireAtStop; split <;> [(split <;> rfl); rfl; rfl; rfl; rfl; rfl]
@[simp] theorem retireAtStop_pend (r : Run) (s : State) : (retireAtStop r s).pend = s.pend := by
  unfold retireAtStop; split <;> [(split <;> rfl); rfl; rfl; rfl; rfl; rfl]
@[simp] theorem retireAtStop_owned (r : Run) (s : State) : (retireAtStop r s).owned = s.owned := by
  unfold retireAtStop; split <;> [(split <;> rfl); rfl; rfl; rfl; rfl; rfl]
@[simp] theorem retireAtStop_afterStart (r : Run) (s : State) : (retireAtStop r s).afterStart = s.afterStart := by
  unfold retireAtStop; split <;> [(split <;> rfl); rfl; rfl; rfl; rfl; rfl]
@[simp] theorem retireAtStop_startLatched (r : Run) (s : State) : (retireAtStop r s).startLatched = s.startLatched := by
  unfold retireAtStop; split <;> [(split <;> rfl); rfl; rfl; rfl; rfl; rfl]
@[simp] theorem retireAtStop_cap (r : Run) (s : State) : (retireAtStop r s).cap = s.cap := by
  unfold retireAtStop; split <;> [(split <;> rfl); rfl; rfl; rfl; rfl; rfl]
@[simp] theorem retireAtStop_trace (r : Run) (s : State) : (retireAtStop r s).trace = s.trace := by
  unfold retireAtStop; split <;> [(split <;> rfl); rfl; rfl; rfl; rfl; rfl]
@[simp] theorem retireAtStop_mainPort (r : Run) (s : State) : (retireAtStop r s).mainPort = s.mainPort := by
  unfold retireAtStop; split <;> [(split <;> rfl); rfl; rfl; rfl; rfl; rfl]
@[simp] theorem retireAtStop_handlerPort (r : Run) (s : State) : (retireAtStop r s).handlerPort = s.handlerPort := by
  unfold retireAtStop; split <;> [(split <;> rfl); rfl; rfl; rfl; rfl; rfl]
@[simp] theorem retireAtStop_sched (r : Run) (s : State) : (retireAtStop r s).sched = s.sched := by
  unfold retireAtStop; split <;> [(split <;> rfl); rfl; rfl; rfl; rfl; rfl]
@[simp] theorem retireAtStop_moves (r : Run) (s : State) : (retireAtStop r s).moves = s.moves := by
  unfold retireAtStop; split <;> [(split <;> rfl); rfl; rfl; rfl; rfl; rfl]
@[simp] theorem retireAtStop_issuer (r : Run) (s : State) : (retireAtStop r s).issuer = s.issuer := by
  unfold retireAtStop; split <;> [(split <;> rfl); rfl; rfl; rfl; rfl; rfl]

@[simp] theorem timeOut_cfg (r : Run) (s : State) : (timeOut r s).cfg = s.cfg := by unfold timeOut; split <;> rfl
@[simp] theorem timeOut_ctrlInt (r : Run) (s : State) : (timeOut r s).ctrlInt = s.ctrlInt := by unfold timeOut; split <;> rfl
@[simp] theorem timeOut_ctrlEa (r : Run) (s : State) : (timeOut r s).ctrlEa = s.ctrlEa := by unfold timeOut; split <;> rfl
@[simp] theorem timeOut_ctrlSta (r : Run) (s : State) : (timeOut r s).ctrlSta = s.ctrlSta := by unfold timeOut; split <;> rfl
@[simp] theorem timeOut_ctrlEn (r : Run) (s : State) : (timeOut r s).ctrlEn = s.ctrlEn := by unfold timeOut; split <;> rfl
@[simp] theorem timeOut_data (r : Run) (s : State) : (timeOut r s).data = s.data := by unfold timeOut; split <;> rfl
@[simp] theorem timeOut_code (r : Run) (s : State) : (timeOut r s).code = s.code := by unfold timeOut; split <;> rfl
@[simp] theorem timeOut_stepCtr (r : Run) (s : State) : (timeOut r s).stepCtr = s.stepCtr := by unfold timeOut; split <;> rfl
@[simp] theorem timeOut_last (r : Run) (s : State) : (timeOut r s).last = s.last := by unfold timeOut; split <;> rfl
@[simp] theorem timeOut_fault (r : Run) (s : State) : (timeOut r s).fault = s.fault := by unfold timeOut; split <;> rfl
@[simp] theorem timeOut_pend (r : Run) (s : State) : (timeOut r s).pend = s.pend := by unfold timeOut; split <;> rfl
@[simp] theorem timeOut_owned (r : Run) (s : State) : (timeOut r s).owned = s.owned := by unfold timeOut; split <;> rfl
@[simp] theorem timeOut_afterStart (r : Run) (s : State) : (timeOut r s).afterStart = s.afterStart := by unfold timeOut; split <;> rfl
@[simp] theorem timeOut_startLatched (r : Run) (s : State) : (timeOut r s).startLatched = s.startLatched := by unfold timeOut; split <;> rfl
@[simp] theorem timeOut_cap (r : Run) (s : State) : (timeOut r s).cap = s.cap := by unfold timeOut; split <;> rfl
@[simp] theorem timeOut_trace (r : Run) (s : State) : (timeOut r s).trace = s.trace := by unfold timeOut; split <;> rfl
@[simp] theorem timeOut_mainPort (r : Run) (s : State) : (timeOut r s).mainPort = s.mainPort := by unfold timeOut; split <;> rfl
@[simp] theorem timeOut_handlerPort (r : Run) (s : State) : (timeOut r s).handlerPort = s.handlerPort := by unfold timeOut; split <;> rfl
@[simp] theorem timeOut_sched (r : Run) (s : State) : (timeOut r s).sched = s.sched := by unfold timeOut; split <;> rfl
@[simp] theorem timeOut_moves (r : Run) (s : State) : (timeOut r s).moves = s.moves := by unfold timeOut; split <;> rfl
@[simp] theorem timeOut_draws (r : Run) (s : State) : (timeOut r s).draws = s.draws := by unfold timeOut; split <;> rfl
@[simp] theorem timeOut_issuer (r : Run) (s : State) : (timeOut r s).issuer = s.issuer := by unfold timeOut; split <;> rfl

@[simp] theorem retireAtStop_seq (r : Run) (s : State) : (retireAtStop r s).seq = .idle := by
  unfold retireAtStop; split <;> [(split <;> rfl); rfl; rfl; rfl; rfl; rfl]
@[simp] theorem timeOut_seq (r : Run) (s : State) : (timeOut r s).seq = .idle := by unfold timeOut; split <;> rfl

end Sys2Proof.Machine
end

