-- ==== Sys2Proof/Laws/Ops.lean ====
section
/-! SUPPORT. What each shared operation can answer, said once: the trigger and its check, the issue step, a phase of
the sequencer, an action of the event-driven machine. Later proofs cite these and do not unfold the operations. -/

namespace Sys2Proof.Machine

open Sys2Proof.Safety

theorem map_ok_iff {x : Except FaultReason State} {f : State → State} {t : State} :
    x.map f = .ok t ↔ ∃ u, x = .ok u ∧ t = f u := by
  cases x <;> simp [Except.map, eq_comm]

theorem map_error_iff {x : Except FaultReason State} {f : State → State} {k : FaultReason} :
    x.map f = .error k ↔ x = .error k := by
  cases x <;> simp [Except.map]

@[simp] theorem map_ok (f : State → State) (u : State) :
    (Except.ok u : Except FaultReason State).map f = .ok (f u) := rfl

@[simp] theorem map_error (f : State → State) (k : FaultReason) :
    (Except.error k : Except FaultReason State).map f = .error k := rfl

@[simp] theorem conclude_ok (s t : State) : conclude s (.ok t) = .next t := rfl

@[simp] theorem conclude_error (s : State) (k : FaultReason) : conclude s (.error k) = .next (raiseFault k s) := rfl

/-- A concluded step answers a next state: the one it made, or the one it began in with a fault raised. -/
theorem conclude_next_iff {s t : State} {x : Except FaultReason State} :
    conclude s x = .next t ↔ x = .ok t ∨ ∃ k, x = .error k ∧ t = raiseFault k s := by
  cases x <;> simp [eq_comm]

theorem faultCode_ne_zero (k : FaultReason) : faultCode k ≠ 0 := by cases k <;> decide

theorem faultCode_range (k : FaultReason) : 1 ≤ (faultCode k).toNat ∧ (faultCode k).toNat ≤ 4 := by
  cases k <;> decide

/-- When a trigger is legal (R93). -/
theorem checkTrigger_none_iff {op : BusOp} {s : State} :
    checkTrigger op s = none ↔
      (s.pend = none ∧ (op = .start ∨ s.owned = true) ∧
          (op = .rxAck ∨ op = .rxNack → s.afterStart = false)) ∨
        (op = .start ∧ s.pend = some .stop ∧ s.startLatched = false) := by
  unfold checkTrigger
  cases s.pend <;> cases op <;> cases s.owned <;> cases s.afterStart <;> simp

/-- Which fault an illegal trigger raises (R192, R193). -/
theorem checkTrigger_some {op : BusOp} {s : State} {k : FaultReason} (h : checkTrigger op s = some k) :
    (s.pend ≠ none ∧ k = .triggerWhileBusy) ∨ (s.pend = none ∧ k = .protocolViolation) := by
  unfold checkTrigger at h
  split at h
  · next p hp =>
    split at h
    · cases h
    · exact .inl ⟨by simp [hp], (Option.some.inj h).symm⟩
  · next hp =>
    refine .inr ⟨hp, ?_⟩
    split at h
    · exact (Option.some.inj h).symm
    · split at h
      · exact (Option.some.inj h).symm
      · cases h

@[simp] theorem image_start : image .start = 0xA4#8 := rfl
@[simp] theorem image_stop : image .stop = 0x94#8 := rfl
@[simp] theorem image_tx : image .tx = 0xC4#8 := rfl
@[simp] theorem image_rxAck : image .rxAck = 0xC4#8 := rfl
@[simp] theorem image_rxNack : image .rxNack = 0x84#8 := rfl

/-- What the check of a trigger reads. -/
theorem checkTrigger_congr {s t : State} (op : BusOp) (hp : s.pend = t.pend) (ho : s.owned = t.owned)
    (ha : s.afterStart = t.afterStart) (hl : s.startLatched = t.startLatched) :
    checkTrigger op s = checkTrigger op t := by
  simp only [checkTrigger, hp, ho, ha, hl]

theorem trigger_ok_iff {op : BusOp} {s t : State} :
    trigger op s = .ok t ↔ checkTrigger op s = none ∧ t = launch op s := by
  unfold trigger
  cases checkTrigger op s <;> simp [eq_comm]

theorem trigger_error_iff {op : BusOp} {s : State} {k : FaultReason} :
    trigger op s = .error k ↔ checkTrigger op s = some k := by
  unfold trigger
  cases checkTrigger op s <;> simp

theorem trigger_eq_ok {op : BusOp} {s : State} (h : checkTrigger op s = none) : trigger op s = .ok (launch op s) :=
  trigger_ok_iff.2 ⟨h, rfl⟩

theorem sendByte_ok_iff {b : Byte} {s t : State} :
    sendByte b s = .ok t ↔ checkTrigger .tx s = none ∧ t = launch .tx { s with data := b } := by
  unfold sendByte
  have hc : checkTrigger .tx { s with data := b } = checkTrigger .tx s := rfl
  cases h : checkTrigger .tx s <;> simp [trigger_ok_iff, hc, h]

theorem sendByte_error_iff {b : Byte} {s : State} {k : FaultReason} :
    sendByte b s = .error k ↔ checkTrigger .tx s = some k := by
  unfold sendByte
  have hc : checkTrigger .tx { s with data := b } = checkTrigger .tx s := rfl
  cases h : checkTrigger .tx s <;> simp [trigger_error_iff, hc, h]

theorem sendByte_eq_ok {b : Byte} {s : State} (h : checkTrigger .tx s = none) :
    sendByte b s = .ok (launch .tx { s with data := b }) :=
  sendByte_ok_iff.2 ⟨h, rfl⟩

/-- The write of DATA a phase makes before its trigger: the byte of a transmit. -/
def loadPhase (ph : Phase) (s : State) : State :=
  { s with data := match ph with
      | .tx b => b
      | .start | .rxAck | .rxNack | .stop => s.data }

@[simp] theorem loadPhase_tx (b : Byte) (s : State) : loadPhase (.tx b) s = { s with data := b } := rfl
@[simp] theorem loadPhase_start (s : State) : loadPhase .start s = s := rfl
@[simp] theorem loadPhase_rxAck (s : State) : loadPhase .rxAck s = s := rfl
@[simp] theorem loadPhase_rxNack (s : State) : loadPhase .rxNack s = s := rfl
@[simp] theorem loadPhase_stop (s : State) : loadPhase .stop s = s := rfl

theorem checkTrigger_loadPhase (op : BusOp) (ph : Phase) (s : State) :
    checkTrigger op (loadPhase ph s) = checkTrigger op s := rfl

/-- Everything issuing a phase can do (R130). -/
theorem issuePhase_ok {r : Run} {s t : State} (h : issuePhase r s = .ok t) :
    (r.prog[r.idx - 1]? = none ∧ t = s) ∨
      ∃ ph, r.prog[r.idx - 1]? = some ph ∧ checkTrigger (phaseOp ph) s = none ∧
        ((ph ≠ .stop ∧ t = await r (launch (phaseOp ph) (loadPhase ph s))) ∨
          (ph = .stop ∧ t = retireAtStop r (launch .stop s))) := by
  unfold issuePhase at h
  cases hp : r.prog[r.idx - 1]? with
  | none => rw [hp] at h; exact .inl ⟨rfl, (Except.ok.inj h).symm⟩
  | some ph =>
    rw [hp] at h
    refine .inr ⟨ph, rfl, ?_⟩
    cases ph <;>
      simp only [map_ok_iff, trigger_ok_iff, sendByte_ok_iff] at h <;>
      obtain ⟨u, ⟨hc, rfl⟩, rfl⟩ := h <;>
      simp [phaseOp, hc]

/-- Issuing a phase whose trigger is legal succeeds. -/
theorem issuePhase_eq_ok {r : Run} {s : State} {ph : Phase} (hp : r.prog[r.idx - 1]? = some ph)
    (hc : checkTrigger (phaseOp ph) s = none) :
    issuePhase r s =
      .ok (if ph = .stop then retireAtStop r (launch .stop s) else await r (launch (phaseOp ph) (loadPhase ph s))) := by
  unfold issuePhase
  rw [hp]
  cases ph <;> simp_all [phaseOp, trigger_eq_ok, sendByte_eq_ok]

/-- Issuing a phase whose trigger is illegal raises the trigger's fault (R130, R189). -/
theorem issuePhase_eq_error {r : Run} {s : State} {ph : Phase} {k : FaultReason} (hp : r.prog[r.idx - 1]? = some ph)
    (hc : checkTrigger (phaseOp ph) s = some k) : issuePhase r s = .error k := by
  unfold issuePhase
  rw [hp]
  cases ph <;> simp only [phaseOp] at hc <;>
    simp only [map_error_iff, trigger_error_iff, sendByte_error_iff] <;> exact hc

/-- What retiring at the final stop writes (R135, R136). -/
theorem retireAtStop_fields (r : Run) (s : State) :
    ∃ v d rs, retireAtStop r s = { s with seq := .idle, result := v, draws := d, responses := rs } := by
  unfold retireAtStop
  split
  · split <;> exact ⟨_, _, _, rfl⟩
  · exact ⟨_, _, _, rfl⟩
  all_goals exact ⟨s.result, s.draws, _, rfl⟩

/-- What a wait that times out writes (R95, R134). -/
theorem timeOut_fields (r : Run) (s : State) :
    ∃ v rs, timeOut r s = { s with seq := .idle, result := v, responses := rs } := by
  unfold timeOut
  split
  · exact ⟨_, _, rfl⟩
  · exact ⟨_, _, rfl⟩
  all_goals exact ⟨s.result, _, rfl⟩

/-- The phase the event-driven machine triggers in a state 0 to 8 (R152). -/
def eventPhase (c : Config) : Nat → Option Phase
  | 0 => some .start
  | 1 => some (.tx (addrByte c.addrMode c.fsmDev .write))
  | 2 => some (.tx c.fsmReg)
  | 3 => some .start
  | 4 => some (.tx (addrByte c.addrMode c.fsmDev .read))
  | 5 => some .rxAck
  | 6 => some .rxAck
  | 7 => some .rxNack
  | 8 => some .stop
  | _ => none

/-- An action's writes: its phase's, and the capture latch in state 7 (R160). -/
def armed (n : Nat) (s : State) : State := { s with cap := if n = 7 then true else s.cap }

/-- Everything an action of the event-driven machine can do (R153 to R161). -/
theorem act_ok_iff {n : Nat} {s t : State} (hn : n ≤ 8) :
    act n s = .ok t ↔
      ∃ ph, eventPhase s.cfg n = some ph ∧ checkTrigger (phaseOp ph) s = none ∧
        t = armed n (launch (phaseOp ph) (loadPhase ph s)) := by
  have hne : ∀ (m : Nat) (u : State), m ≠ 7 → armed m u = u := fun m u hm => by simp [armed, hm]
  match n, hn with
  | 0, _ | 1, _ | 2, _ | 3, _ | 4, _ | 5, _ | 6, _ | 8, _ =>
    simp only [act, eventPhase, phaseOp, trigger_ok_iff, sendByte_ok_iff, Option.some.injEq, exists_eq_left', loadPhase_tx,
      loadPhase_start, loadPhase_rxAck, loadPhase_stop]
    rw [hne _ _ (by decide)]
  | 7, _ =>
    simp only [act, eventPhase, phaseOp, trigger_ok_iff, map_ok_iff, Option.some.injEq, exists_eq_left',
      loadPhase_rxNack, exists_eq_left, and_assoc, exists_and_left]
    rfl
  | n + 9, h => omega

theorem pathCheck_event_none_iff {s : State} : pathCheck .event s = none ↔ s.seq = .idle := by
  simp [pathCheck]

theorem pathCheck_blocking_none_iff {s : State} :
    pathCheck .blocking s = none ↔ s.seq = .idle ∧ eventInside s = false := by
  unfold pathCheck
  cases s.seq <;> cases eventInside s <;> simp

theorem pathCheck_some {u : PathUse} {s : State} {k : FaultReason} (h : pathCheck u s = some k) :
    k = .concurrentPaths := by
  unfold pathCheck at h
  cases u with
  | pureRead => cases h
  | event => simp only [] at h; split at h <;> simp_all
  | blocking => simp only [] at h; split at h <;> [split at h; skip] <;> simp_all

/-- Everything the issue step of a decoded command can do (R91). -/
theorem issue_next {u : PathUse} {rule : State → Except FaultReason State} {s t : State}
    (h : issue u rule s = .next t) :
    s.fault = 0 ∧ ((∃ k, t = raiseFault k s) ∨ (pathCheck u s = none ∧ rule s = .ok t)) := by
  unfold issue at h
  split at h
  · cases h
  · next h0 =>
    refine ⟨by simpa using h0, ?_⟩
    split at h
    · next k _ => exact .inl ⟨k, by cases h; rfl⟩
    · next hp =>
      rcases conclude_next_iff.1 h with h | ⟨k, -, rfl⟩
      · exact .inr ⟨hp, h⟩
      · exact .inl ⟨k, rfl⟩

theorem issue_eq_conclude {u : PathUse} {rule : State → Except FaultReason State} {s : State} (h0 : s.fault = 0)
    (hp : pathCheck u s = none) : issue u rule s = conclude s (rule s) := by
  simp [issue, h0, hp]

theorem issue_eq_fault {u : PathUse} {rule : State → Except FaultReason State} {s : State} (h0 : s.fault ≠ 0) :
    issue u rule s = .fault (.blockFaulted s.fault) := by
  rw [issue, if_pos h0]

theorem issue_eq_raise {u : PathUse} {rule : State → Except FaultReason State} {s : State} {k : FaultReason}
    (h0 : s.fault = 0) (hp : pathCheck u s = some k) : issue u rule s = .next (raiseFault k s) := by
  simp [issue, h0, hp]

theorem exec_start (s : State) : exec .start s = issue .blocking (beginCommand .start) s := rfl
theorem exec_stop (s : State) : exec .stop s = issue .blocking stopRule s := rfl
theorem exec_writeByte (c : Byte) (s : State) :
    exec (.writeByte c) s = issue .blocking (beginCommand (.writeByte c)) s := rfl
theorem exec_readAck (s : State) : exec .readAck s = issue .blocking (beginCommand .readAck) s := rfl
theorem exec_readNack (s : State) : exec .readNack s = issue .blocking (beginCommand .readNack) s := rfl
theorem exec_getStatus (s : State) : exec .getStatus s = issue .pureRead statusRule s := rfl
theorem exec_readReg (off : Byte) (s : State) : exec (.readReg off) s = issue .pureRead (readRule off) s := rfl
theorem exec_writeTxn (dev reg data : Byte) (s : State) :
    exec (.writeTxn dev reg data) s = issue .blocking (beginCommand (.writeTxn dev reg data)) s := rfl
theorem exec_readTxn (dev reg : Byte) (s : State) :
    exec (.readTxn dev reg) s = issue .blocking (beginCommand (.readTxn dev reg)) s := rfl
theorem exec_fsmEvent (s : State) : exec .fsmEvent s = issue .event eventRule s := rfl

/-- A context with no command outstanding issues its next word (R91, R196). -/
theorem contextStep_of_free {c : Ctx} {s : State} (h : outstanding c s = false) : contextStep c s = issueNext c s := by
  unfold outstanding at h
  unfold contextStep
  split <;> simp_all

/-- A context whose command runs continues it (R95). -/
theorem contextStep_of_run {r : Run} {s : State} (h : s.seq = .run r) :
    contextStep r.owner s = conclude s (continueCommand r s) := by
  simp [contextStep, h]

/-- One step, by the move taken. -/
theorem step_of_move {s u : State} {m : Move} (h0 : s.fault = 0) (hm : takeMove s = (m, u)) :
    step s = agentStep m u := by
  rw [step, if_neg (by simpa using h0), hm]

/-- The state after the move is taken differs from the one before in `sched` and `moves` alone. -/
theorem takeMove_snd {s u : State} {m : Move} (hm : takeMove s = (m, u)) :
    u = { s with sched := u.sched, moves := u.moves } := by
  unfold takeMove at hm
  split at hm <;> cases hm <;> rfl

end Sys2Proof.Machine
end

