-- ==== Sys2Proof/Laws/Step.lean ====
section
/-! SUPPORT. Everything one step can do, said once: `step_cases` says that a step that answers a next state is a step
of a context, with one of the effects `Effect` lists, each with the conditions it happens under, or a completion by
ENGINE. An invariant is then one case per effect. -/

namespace Sys2Proof.Machine

open Sys2Proof.Safety

/-- The command is a transaction, not a primitive. -/
def isTxn : BlockCmd → Bool
  | .writeTxn _ _ _ | .readTxn _ _ => true
  | .start | .writeByte _ | .readAck | .readNack => false

/-- What one atomic step of a context can do to the block in `s`. -/
inductive Effect (s : State) : State → Prop
  /-- the chosen agent has no enabled step -/
  | idle : Effect s s
  /-- a fault is raised (R187) -/
  | fault (k : FaultReason) : Effect s (raiseFault k s)
  /-- GET_STATUS or READ_REG responds (R101, R102) -/
  | reply (x : Response) : Effect s (respond s.issuer x s)
  /-- STOP is triggered and retires (R97) -/
  | stop (hseq : s.seq = .idle) (hout : eventInside s = false) (hc : checkTrigger .stop s = none) :
      Effect s (respond s.issuer .nothing (launch .stop s))
  /-- a blocking command is issued and its first phase triggered (R96 to R100, R129) -/
  | begin (cmd : BlockCmd) (ph : Phase) (hseq : s.seq = .idle) (hout : eventInside s = false)
      (hph : (program s.cfg cmd)[0]? = some ph) (hns : ph ≠ .stop) (hc : checkTrigger (phaseOp ph) s = none) :
      Effect s (await (newRun s.issuer cmd s) (launch (phaseOp ph) (loadPhase ph s)))
  /-- FSM_EVENT in a state 0 to 8 (R151) -/
  | event (ph : Phase) (hseq : s.seq = .idle) (hle : s.stepCtr.toNat ≤ 8)
      (hph : eventPhase s.cfg s.stepCtr.toNat = some ph) (hc : checkTrigger (phaseOp ph) s = none) :
      Effect s (finishEvent (s.stepCtr + 1) (armed s.stepCtr.toNat (launch (phaseOp ph) (loadPhase ph s))))
  /-- FSM_EVENT in the default branch (R162) -/
  | eventReset (hseq : s.seq = .idle) (hgt : 8 < s.stepCtr.toNat) : Effect s (finishEvent 0 s)
  /-- a primitive's wait is observed over and it retires (R95 to R100) -/
  | retirePrimitive (r : Run) (x : Response) (hrun : s.seq = .run r) (hw : r.waiting = true)
      (hint : s.ctrlInt = true) (hcmd : isTxn r.cmd = false) : Effect s (retirePrimitive r x s)
  /-- a transaction's phase is complete and its next phase, not the stop, is triggered (R131) -/
  | nextPhase (r : Run) (ph : Phase) (hrun : s.seq = .run r) (hw : r.waiting = true) (hint : s.ctrlInt = true)
      (hcmd : isTxn r.cmd = true) (hchk : checkFails r s = false) (hph : r.prog[r.idx]? = some ph) (hns : ph ≠ .stop)
      (hc : checkTrigger (phaseOp ph) s = none) :
      Effect s (await (nextPhase r s) (launch (phaseOp ph) (loadPhase ph (recordLast r s))))
  /-- a transaction's last waiting phase is complete, its stop is triggered and it retires (R135, R136) -/
  | retireTxn (r : Run) (hrun : s.seq = .run r) (hw : r.waiting = true) (hint : s.ctrlInt = true)
      (hcmd : isTxn r.cmd = true) (hchk : checkFails r s = false) (hph : r.prog[r.idx]? = some .stop)
      (hc : checkTrigger .stop s = none) :
      Effect s (retireAtStop (nextPhase r s) (launch .stop (recordLast r s)))
  /-- a phase outside the program (met in no run) -/
  | pastProgram (r : Run) (hrun : s.seq = .run r) (hw : r.waiting = true) (hint : s.ctrlInt = true)
      (hcmd : isTxn r.cmd = true) (hph : r.prog[r.idx]? = none) : Effect s (recordLast r s)
  /-- a failed check aborts with a stop (R133) -/
  | abortStop (r : Run) (hrun : s.seq = .run r) (hw : r.waiting = true) (hint : s.ctrlInt = true)
      (hcmd : isTxn r.cmd = true) (hchk : checkFails r s = true) (howned : s.owned = true)
      (hc : checkTrigger .stop s = none) :
      Effect s (finishTxn r (resultWord (failKind s.cfg.statusCodes (statusValue s)) r.idx (statusValue s) 0)
        (launch .stop s))
  /-- a failed check aborts on a bus not held (R133) -/
  | abortQuiet (r : Run) (hrun : s.seq = .run r) (hw : r.waiting = true) (hint : s.ctrlInt = true)
      (hcmd : isTxn r.cmd = true) (hchk : checkFails r s = true) (howned : s.owned = false) :
      Effect s (finishTxn r (resultWord (failKind s.cfg.statusCodes (statusValue s)) r.idx (statusValue s) 0) s)
  /-- a poll ends the wait in TIMEOUT (R95, R134) -/
  | timeOut (r : Run) (n : Nat) (hrun : s.seq = .run r) (hw : r.waiting = true) (hint : s.ctrlInt = false)
      (hb : s.cfg.waitBound = some n) (hn : r.polls + 1 = n) : Effect s (timeOut r s)
  /-- a poll is counted (R95) -/
  | poll (r : Run) (n : Nat) (hrun : s.seq = .run r) (hw : r.waiting = true) (hint : s.ctrlInt = false)
      (hb : s.cfg.waitBound = some n) (hn : r.polls + 1 ≠ n) :
      Effect s { s with seq := .run { r with polls := r.polls + 1 } }

theorem recordLast_checkTrigger (op : BusOp) (r : Run) (s : State) :
    checkTrigger op (recordLast r s) = checkTrigger op s := rfl

theorem beginCommand_ok {cmd : BlockCmd} {s t : State} (hseq : s.seq = .idle) (hout : eventInside s = false)
    (h : beginCommand cmd s = .ok t) : Effect s t := by
  rcases issuePhase_ok h with ⟨hp, -⟩ | ⟨ph, hp, hc, ⟨hns, rfl⟩ | ⟨rfl, -⟩⟩
  · exfalso
    cases cmd <;> simp [newRun, program] at hp
  · exact .begin cmd ph hseq hout hp hns hc
  · exfalso
    cases cmd <;> simp [newRun, program] at hp

theorem stopRule_ok {s t : State} (hseq : s.seq = .idle) (hout : eventInside s = false) (h : stopRule s = .ok t) :
    Effect s t := by
  obtain ⟨u, hu, rfl⟩ := map_ok_iff.1 h
  obtain ⟨hc, rfl⟩ := trigger_ok_iff.1 hu
  exact .stop hseq hout hc

theorem eventRule_ok {s t : State} (hseq : s.seq = .idle) (h : eventRule s = .ok t) : Effect s t := by
  unfold eventRule at h
  split at h
  · next hle =>
    obtain ⟨u, hu, rfl⟩ := map_ok_iff.1 h
    obtain ⟨ph, hph, hc, rfl⟩ := (act_ok_iff hle).1 hu
    exact .event ph hseq hle hph hc
  · next hgt => cases h; exact .eventReset hseq (by omega)

/-- An issue step whose rule has only the effects `Effect` lists has only those, or raises a fault. -/
theorem issue_effect {u : PathUse} {rule : State → Except FaultReason State} {s t : State}
    (hrule : pathCheck u s = none → rule s = .ok t → Effect s t) (h : issue u rule s = .next t) :
    s.fault = 0 ∧ Effect s t := by
  obtain ⟨h0, ⟨k, rfl⟩ | ⟨hp, h⟩⟩ := issue_next h
  · exact ⟨h0, .fault k⟩
  · exact ⟨h0, hrule hp h⟩

/-- Everything an issued command can do in its issue step. -/
theorem exec_effect {i : Instr} {s t : State} (h : exec i s = .next t) : s.fault = 0 ∧ Effect s t := by
  have hbegin : ∀ cmd, pathCheck .blocking s = none → beginCommand cmd s = .ok t → Effect s t := fun cmd hp h =>
    beginCommand_ok (pathCheck_blocking_none_iff.1 hp).1 (pathCheck_blocking_none_iff.1 hp).2 h
  have hreply : ∀ x, (Except.ok (respond s.issuer x s) : Except FaultReason State) = .ok t → Effect s t := fun x h =>
    Except.ok.inj h ▸ .reply x
  cases i with
  | start | writeByte c | readAck | readNack | writeTxn d r x | readTxn d r => exact issue_effect (hbegin _) h
  | stop =>
    exact issue_effect
      (fun hp h => stopRule_ok (pathCheck_blocking_none_iff.1 hp).1 (pathCheck_blocking_none_iff.1 hp).2 h) h
  | getStatus => exact issue_effect (u := .pureRead) (rule := statusRule) (fun _ h => hreply _ h) h
  | readReg off => exact issue_effect (u := .pureRead) (rule := readRule off) (fun _ h => hreply _ h) h
  | fsmEvent => exact issue_effect (fun hp h => eventRule_ok (pathCheck_event_none_iff.1 hp) h) h

theorem completePhase_ok {r : Run} {s t : State} (hrun : s.seq = .run r) (hw : r.waiting = true)
    (hint : s.ctrlInt = true) (hcmd : isTxn r.cmd = true) (h : completePhase r s = .ok t) : Effect s t := by
  unfold completePhase at h
  split at h
  · next hchk =>
    unfold abortTxn at h
    simp only [] at h
    split at h
    · next ho =>
      obtain ⟨u, hu, rfl⟩ := map_ok_iff.1 h
      obtain ⟨hc, rfl⟩ := trigger_ok_iff.1 hu
      exact .abortStop r hrun hw hint hcmd hchk ho hc
    · next ho =>
      cases h
      exact .abortQuiet r hrun hw hint hcmd hchk (by simpa using ho)
  · next hchk =>
    have hchk : checkFails r s = false := by simpa using hchk
    rcases issuePhase_ok h with ⟨hp, rfl⟩ | ⟨ph, hp, hc, ⟨hns, rfl⟩ | ⟨rfl, rfl⟩⟩
    · exact .pastProgram r hrun hw hint hcmd hp
    · exact .nextPhase r ph hrun hw hint hcmd hchk hp hns hc
    · exact .retireTxn r hrun hw hint hcmd hchk hp hc

/-- Everything the step of a context whose command runs can do (R95, R131). -/
theorem continueCommand_ok {r : Run} {s t : State} (hrun : s.seq = .run r) (h : continueCommand r s = .ok t) :
    Effect s t := by
  unfold continueCommand at h
  split at h
  · next hw =>
    split at h
    · next hint =>
      unfold observe at h
      split at h <;> first
        | (next hc => cases h; exact .retirePrimitive r _ hrun hw hint (by simp [hc, isTxn]))
        | (next hc => exact completePhase_ok hrun hw hint (by simp [hc, isTxn]) h)
    · next hint =>
      have hint : s.ctrlInt = false := by simpa using hint
      cases h
      unfold poll
      split
      · exact .idle
      · next n hb =>
        split
        · next hn => exact .timeOut r n hrun hw hint hb hn
        · next hn => exact .poll r n hrun hw hint hb hn
  · cases h; exact .idle

theorem conclude_effect {s t : State} {x : Except FaultReason State} (hx : ∀ u, x = .ok u → Effect s u)
    (h : conclude s x = .next t) : Effect s t := by
  rcases conclude_next_iff.1 h with h | ⟨k, -, rfl⟩
  · exact hx t h
  · exact .fault k

theorem sameBlock_refl (s : State) : SameBlock s s := rfl

theorem sameBlock_takeMove (s : State) : SameBlock s (takeMove s).2 := by
  unfold takeMove
  split <;> rfl

theorem sameBlock_atPort (c : Ctx) (ws : List Word) (s : State) : SameBlock s (atPort c ws s) := by
  cases c <;> rfl

theorem sameBlock_trans {s t u : State} (h₁ : SameBlock s t) (h₂ : SameBlock t u) : SameBlock s u := by
  unfold SameBlock at *
  rw [h₂, h₁]

/-- Everything the step of a context can do (R91, R95, R196): `u` is `s` with the word taken, or `s` itself. -/
theorem contextStep_effect {c : Ctx} {s t : State} (h0 : s.fault = 0) (h : contextStep c s = .next t) :
    ∃ u, SameBlock s u ∧ Effect u t := by
  have hissue : ∀ {t}, issueNext c s = .next t → ∃ u, SameBlock s u ∧ Effect u t := by
    intro t h
    unfold issueNext at h
    split at h
    · cases h; exact ⟨s, sameBlock_refl s, .idle⟩
    · next w ws _ =>
      refine ⟨atPort c ws s, sameBlock_atPort c ws s, ?_⟩
      unfold issueWord at h
      rw [atPort_fault, if_neg (by simpa using h0)] at h
      split at h
      · cases h; exact .fault _
      · exact (exec_effect h).2
  unfold contextStep at h
  split at h
  · exact hissue h
  · next r hr =>
    split at h
    · exact ⟨s, sameBlock_refl s, conclude_effect (fun u hu => continueCommand_ok hr hu) h⟩
    · exact hissue h

/-- No step of a context changes a parameter, STATUS.CODE, the trace, or who holds the bus. -/
theorem effect_keeps {s t : State} (e : Effect s t) :
    t.cfg = s.cfg ∧ t.code = s.code ∧ t.trace = s.trace ∧ t.owned = s.owned ∧ t.afterStart = s.afterStart := by
  cases e with
  | retireTxn r =>
    obtain ⟨v, d, rs, e⟩ := retireAtStop_fields (nextPhase r s) (launch .stop (recordLast r s))
    rw [e]
    exact ⟨rfl, rfl, rfl, rfl, rfl⟩
  | timeOut r n =>
    obtain ⟨v, rs, e⟩ := timeOut_fields r s
    rw [e]
    exact ⟨rfl, rfl, rfl, rfl, rfl⟩
  | _ => exact ⟨rfl, rfl, rfl, rfl, rfl⟩

/-- No completion by ENGINE changes a parameter, a counter, RESULT, FAULT, EN or what the contexts hold; the trace grows by
one event. -/
theorem complete_keeps (op : BusOp) (a : Answer) (s : State) :
    (complete op a s).cfg = s.cfg ∧ (complete op a s).stepCtr = s.stepCtr ∧ (complete op a s).result = s.result ∧
      (complete op a s).fault = s.fault ∧ (complete op a s).ctrlEn = s.ctrlEn ∧ (complete op a s).seq = s.seq ∧
      (complete op a s).responses = s.responses ∧ ∃ e, (complete op a s).trace = s.trace ++ [e] := by
  cases a with
  | done =>
    simp only [complete]
    split
    · exact ⟨rfl, rfl, rfl, rfl, rfl, rfl, rfl, _, rfl⟩
    · exact ⟨rfl, rfl, rfl, rfl, rfl, rfl, rfl, _, rfl⟩
  | acked k =>
    simp only [complete, completeTx]
    split <;> exact ⟨rfl, rfl, rfl, rfl, rfl, rfl, rfl, _, rfl⟩
  | byte v =>
    simp only [complete, completeRx, capture_eq]
    exact ⟨rfl, rfl, rfl, rfl, rfl, rfl, rfl, _, rfl⟩
  | busError => exact ⟨rfl, rfl, rfl, rfl, rfl, rfl, rfl, _, rfl⟩

/-- Everything ENGINE's move can do: nothing, or the completion of the operation in flight (R103). -/
theorem engineStep_cases (a : Answer) (s : State) :
    engineStep a s = s ∨ ∃ op, s.pend = some op ∧ admits s.cfg op a = true ∧ engineStep a s = complete op a s := by
  unfold engineStep
  split
  · exact .inl rfl
  · next op hp =>
    split
    · next ha => exact .inr ⟨op, hp, ha, rfl⟩
    · exact .inl rfl

/-- Everything one step can do: the block is not faulted, and the step is a context's, with one effect on a state that
has the same block, or ENGINE's, with nothing or a completion of the state with the move taken. -/
theorem step_cases {s t : State} (h : step s = .next t) :
    s.fault = 0 ∧
      ((∃ c u, (takeMove s).1 = .context c ∧ SameBlock s u ∧ Effect u t) ∨
        ∃ a u, takeMove s = (.engine a, u) ∧ SameBlock s u ∧
          (t = u ∨ ∃ op, u.pend = some op ∧ admits u.cfg op a = true ∧ t = complete op a u)) := by
  unfold step at h
  split at h
  · cases h
  · next h0 =>
    have h0 : s.fault = 0 := by simpa using h0
    refine ⟨h0, ?_⟩
    have hs := sameBlock_takeMove s
    cases hm : (takeMove s).1 with
    | context c =>
      rw [hm] at h
      obtain ⟨u, hu, he⟩ := contextStep_effect (by simpa using h0) h
      exact .inl ⟨c, u, rfl, sameBlock_trans hs hu, he⟩
    | engine a =>
      rw [hm] at h
      have h := Host.Outcome.next.inj h
      refine .inr ⟨a, (takeMove s).2, Prod.ext hm rfl, hs, ?_⟩
      rcases engineStep_cases a (takeMove s).2 with he | ⟨op, hp, ha, he⟩
      · exact .inl (h.symm.trans he)
      · exact .inr ⟨op, hp, ha, h.symm.trans he⟩

end Sys2Proof.Machine
end

