-- ==== Sys2Proof/Laws/Fair.lean ====
section
/-! SUPPORT. What the fairness of R228 gives: on a fair run a wait that has a step, to observe or to poll, moves on, and a
bounded wait ends. -/

namespace Sys2Proof.Machine

open Sys2Proof.Safety

theorem runs_of_sameBlock {s u : State} (h : SameBlock s u) :
    u.seq = s.seq ∧ u.ctrlInt = s.ctrlInt ∧ u.cfg = s.cfg := by
  rw [h]
  exact ⟨rfl, rfl, rfl⟩

/-- No completion clears INT. -/
theorem complete_ctrlInt (op : BusOp) (a : Answer) {s : State} (h : s.ctrlInt = true) :
    (complete op a s).ctrlInt = true := by
  cases a with
  | done =>
    simp only [complete]
    split
    · rfl
    · exact h
  | acked k =>
    simp only [complete, completeTx]
    split <;> rfl
  | byte v => rfl
  | busError => rfl

/-- What a step can do to a running command, if it leaves the block not faulted: nothing, and then INT is not cleared; one
poll of a bounded wait; or the end of that wait. -/
theorem step_of_running {s t : State} {r : Run} (hq : s.seq = .run r) (h : step s = .next t) (h0 : t.fault = 0) :
    (t.seq = .run r ∧ (s.ctrlInt = true → t.ctrlInt = true) ∧ t.cfg = s.cfg) ∨
      (∃ n, s.cfg.waitBound = some n ∧ r.polls + 1 ≠ n ∧ t.seq = .run { r with polls := r.polls + 1 } ∧ t.cfg = s.cfg) ∨
      ∀ k, t.seq ≠ .run { r with polls := k } := by
  have ended : t.seq = .idle → ∀ k, t.seq ≠ .run { r with polls := k } := fun h' k => by simp [h']
  obtain ⟨-, ⟨c, u, -, hu, e⟩ | ⟨a, u, -, hu, he⟩⟩ := step_cases h
  all_goals
    obtain ⟨hus, hui, huc⟩ := runs_of_sameBlock hu
    have huq : u.seq = .run r := hus.trans hq
  · have hrun : ∀ r', u.seq = .run r' → r' = r := fun r' h' => Seq.run.inj (h'.symm.trans huq)
    have hidle : u.seq ≠ .idle := fun h' => by simp [huq] at h'
    cases e with
    | idle => exact .inl ⟨huq, fun h' => hui.trans h', huc⟩
    | fault k => exact absurd h0 (faultCode_ne_zero k)
    | reply => exact .inl ⟨huq, fun h' => hui.trans h', huc⟩
    | pastProgram => exact .inl ⟨huq, fun h' => hui.trans h', huc⟩
    | stop hseq => exact absurd hseq hidle
    | begin _ _ hseq => exact absurd hseq hidle
    | event _ hseq => exact absurd hseq hidle
    | eventReset hseq => exact absurd hseq hidle
    | retirePrimitive => exact .inr (.inr (ended rfl))
    | abortStop => exact .inr (.inr (ended rfl))
    | abortQuiet => exact .inr (.inr (ended rfl))
    | retireTxn r' =>
      obtain ⟨v, d, rs, e⟩ := retireAtStop_fields (nextPhase r' u) (launch .stop (recordLast r' u))
      exact .inr (.inr (ended (by rw [e])))
    | timeOut r' =>
      obtain ⟨v, rs, e⟩ := timeOut_fields r' u
      exact .inr (.inr (ended (by rw [e])))
    | nextPhase r' ph hr' =>
      obtain rfl := hrun r' hr'
      refine .inr (.inr fun k h' => ?_)
      have := congrArg Run.idx (Seq.run.inj h')
      simp [Machine.nextPhase] at this
    | poll r' n hr' _ _ hb hn =>
      obtain rfl := hrun r' hr'
      exact .inr (.inl ⟨n, huc ▸ hb, hn, rfl, huc⟩)
  · rcases he with rfl | ⟨op, -, -, rfl⟩
    · exact .inl ⟨huq, fun h' => hui.trans h', huc⟩
    · obtain ⟨kc, -, -, -, -, kq, -⟩ := complete_keeps op a u
      exact .inl ⟨kq.trans huq, fun h' => complete_ctrlInt op a (hui.trans h'), kc.trans huc⟩

/-- A transaction that waits has a phase to come: only the stop, which is not awaited, is its program's last. -/
theorem phase_to_come {s : State} {r : Run} (hs : RunInv s r) (hcmd : isTxn r.cmd = true) : r.prog[r.idx]? ≠ none := by
  intro hn
  obtain ⟨ph, hp, hns, -⟩ := hs.phase
  obtain ⟨l, hl⟩ : ∃ l, r.prog = l ++ [.stop] := by
    rw [hs.prog]
    cases hc : r.cmd with
    | writeTxn d g x => exact ⟨[_, _, _, _], rfl⟩
    | readTxn d g => exact ⟨[_, _, _, _, _, _, _, _], rfl⟩
    | start | writeByte | readAck | readNack => simp [hc, isTxn] at hcmd
  rw [hl] at hn hp
  have h₁ : l.length + 1 ≤ r.idx := by simpa using hn
  have h₂ : r.idx - 1 < l.length + 1 := by
    by_contra hlt
    rw [List.getElem?_eq_none (by simp; omega)] at hp
    cases hp
  rw [show r.idx - 1 = l.length by omega] at hp
  exact hns (by simpa using hp.symm)

/-- A completed phase with a phase to come leaves SEQ idle or on that phase (R131, R133). -/
theorem completePhase_moves {r : Run} {s t : State} (hp : r.prog[r.idx]? ≠ none) (h : completePhase r s = .ok t) :
    t.seq ≠ .run r := by
  have ended : t.seq = .idle → t.seq ≠ .run r := fun h' => by simp [h']
  unfold completePhase at h
  split at h
  · unfold abortTxn at h
    simp only [] at h
    split at h
    · obtain ⟨u, -, rfl⟩ := map_ok_iff.1 h
      exact ended rfl
    · cases h
      exact ended rfl
  · rcases issuePhase_ok h with ⟨hn, -⟩ | ⟨ph, -, -, ⟨-, rfl⟩ | ⟨-, rfl⟩⟩
    · exact absurd hn hp
    · intro h'
      have := congrArg Run.idx (Seq.run.inj h')
      simp [Machine.nextPhase] at this
    · obtain ⟨v, d, rs, e⟩ := retireAtStop_fields (nextPhase r s) (launch .stop (recordLast r s))
      exact ended (by rw [e])

/-- A poll of a bounded wait leaves SEQ idle or counts (R95). -/
theorem poll_moves {r : Run} {s : State} (hb : s.cfg.waitBound.isSome = true) : (poll r s).seq ≠ .run r := by
  unfold poll
  split
  · next hn => simp [hn] at hb
  · split
    · obtain ⟨v, rs, e⟩ := timeOut_fields r s
      simp [e]
    · intro h'
      have := congrArg Run.polls (Seq.run.inj h')
      simp at this

/-- A step of the owner of a wait that has one changes SEQ, if it leaves the block not faulted (R95). -/
theorem step_of_owner {s t : State} {r : Run} (hq : s.seq = .run r) (hs : RunInv s r) (he : waitEnabled r s = true)
    (hm : (takeMove s).1 = .context r.owner) (h : step s = .next t) (h0 : t.fault = 0) : t.seq ≠ .run r := by
  obtain ⟨hus, hui, huc⟩ := runs_of_sameBlock (sameBlock_takeMove s)
  rw [step_of_move (step_cases h).1 (Prod.ext hm rfl)] at h
  change contextStep r.owner _ = _ at h
  rw [contextStep_of_run (hus.trans hq)] at h
  rcases conclude_next_iff.1 h with h | ⟨k, -, rfl⟩
  · rw [continueCommand, if_pos hs.waiting, hui] at h
    split at h
    · unfold observe at h
      split at h <;> first
        | (cases h; simp [retirePrimitive, respond])
        | (next hc => exact completePhase_moves (phase_to_come hs (by simp [hc, isTxn])) h)
    · next hint =>
      cases h
      exact poll_moves (by simpa [waitEnabled, hs.waiting, hint, huc] using he)
  · exact absurd h0 (faultCode_ne_zero k)

/-- On a fair run a wait that has a step moves on: it is observed, where INT is 1, or polled, where it is bounded (R228). -/
theorem fair_wait_moves {run : Nat → State} {n : Nat} {r : Run} (hrun : IsRun run) (hfair : IssuerFair run)
    (hinv : ∀ m, SeqInv (run m)) (he : waitEnabled r (run n) = true) :
    ∃ m, n ≤ m ∧ (run m).seq ≠ .run r := by
  by_contra hno
  have hstay : ∀ m, n ≤ m → (run m).seq = .run r := fun m hm => by
    by_contra hne
    exact hno ⟨m, hm, hne⟩
  have hf : ∀ m, (run m).fault = 0 := fun m => (step_cases (hrun m)).1
  have hen : ∀ m, n ≤ m → waitEnabled r (run m) = true := by
    intro m hm
    induction m, hm using Nat.le_induction with
    | base => exact he
    | succ m hm ih =>
      rcases step_of_running (hstay m hm) (hrun m) (hf _) with ⟨-, hi, hc⟩ | ⟨b, -, -, h', -⟩ | h'
      · unfold waitEnabled at ih ⊢
        rw [hc]
        simp only [Bool.and_eq_true, Bool.or_eq_true] at ih ⊢
        exact ⟨ih.1, ih.2.imp hi id⟩
      · have := congrArg Run.polls (Seq.run.inj (h'.symm.trans (hstay _ (by omega))))
        simp at this
      · exact absurd (hstay _ (by omega)) (h' r.polls)
  obtain ⟨m, hm, hmove⟩ := hfair r.owner n fun m hm => by
    simp [continuationEnabled, hf m, hstay m hm, hen m hm]
  exact step_of_owner (hstay m hm) (hinv m r (hstay m hm)) (hen m hm) hmove (hrun m) (hf _) (hstay _ (by omega))

/-- On a fair run a wait bounded by `b` ends, observed or in TIMEOUT, whatever ENGINE and BUS do (R95, R228). -/
theorem fair_bounded_wait_ends {run : Nat → State} {b : Nat} (hrun : IsRun run) (hfair : IssuerFair run)
    (hinv : ∀ m, SeqInv (run m)) :
    ∀ (d n : Nat) (r : Run), (run n).cfg.waitBound = some b → (run n).seq = .run r → b ≤ r.polls + d →
      ∃ m, n ≤ m ∧ ∀ k, (run m).seq ≠ .run { r with polls := k } := by
  intro d
  induction d with
  | zero =>
    intro n r hb hq hd
    exact absurd ((hinv n r hq).polls b hb) (by omega)
  | succ d ih =>
    intro n r hb hq hd
    have hex := fair_wait_moves hrun hfair hinv (n := n) (r := r) (by simp [waitEnabled, (hinv n r hq).waiting, hb])
    have hf : ∀ m, (run m).fault = 0 := fun m => (step_cases (hrun m)).1
    classical
    let m := Nat.find hex
    have hm : n ≤ m ∧ (run m).seq ≠ .run r := Nat.find_spec hex
    have hbefore : ∀ j, n ≤ j → j < m → (run j).seq = .run r := fun j hj hlt => by
      by_contra hne
      exact Nat.find_min hex hlt ⟨hj, hne⟩
    have hcfg : ∀ j, n ≤ j → j < m → (run j).cfg.waitBound = some b := by
      intro j hj
      induction j, hj using Nat.le_induction with
      | base => exact fun _ => hb
      | succ j hj ihj =>
        intro hlt
        rcases step_of_running (hbefore j hj (by omega)) (hrun j) (hf _) with ⟨-, -, hc⟩ | ⟨_, -, -, -, hc⟩ | h'
        · rw [hc]; exact ihj (by omega)
        · rw [hc]; exact ihj (by omega)
        · exact absurd (hbefore (j + 1) (by omega) hlt) (h' r.polls)
    have hlt : n < m := lt_of_le_of_ne hm.1 fun h' => hm.2 (h' ▸ hq)
    obtain ⟨j, hj⟩ : ∃ j, m = j + 1 := ⟨m - 1, by omega⟩
    rw [hj] at hm
    rcases step_of_running (hbefore j (by omega) (by omega)) (hrun j) (hf _) with ⟨h', -⟩ | ⟨_, -, -, h', hc⟩ | h'
    · exact absurd h' hm.2
    · obtain ⟨m', hm', hend⟩ := ih (j + 1) { r with polls := r.polls + 1 }
        (by rw [hc]; exact hcfg j (by omega) (by omega)) h' (by simp; omega)
      exact ⟨m', by omega, hend⟩
    · exact ⟨j + 1, by omega, h'⟩

end Sys2Proof.Machine
end

