-- ==== Sys2Proof/Laws/PerInstr.lean ====
section
/-! SUPPORT. Statements about every command as syntax, one lemma per constructor. EncodingShape: the word of a command
has its reserved field 0, an opcode of the map and no bit outside the fields the command uses (R70, R72, R73, R82). -/

namespace Sys2Proof.Laws.EncodingShape

/-- The word the assembler emits for `i` is a legal one with its unused fields 0. -/
def Statement (i : Instr) : Prop :=
  rsvField (encode i) = 0#4 ∧ 1 ≤ (opField (encode i)).toNat ∧ (opField (encode i)).toNat ≤ 0xA ∧
    encode i &&& usedBits i = encode i

/-- A word is not changed by a mask that keeps, in each field, the field's bits. -/
theorem and_mask {op : BitVec 4} {a b c : Byte} {m : Word} (ho : op &&& opField m = op) (ha : a &&& aField m = a)
    (hb : b &&& bField m = b) (hc : c &&& cField m = c) :
    wordOfFields op a b c &&& m = wordOfFields op a b c := by
  obtain ⟨eo, er, ea, eb, ec⟩ := fields_wordOfFields op a b c
  obtain ⟨fo, fr, fa, fb, fc⟩ := fields_and (wordOfFields op a b c) m
  refine word_ext ?_ ?_ ?_ ?_ ?_
  · rw [fo, eo, ho]
  · rw [fr, er, BitVec.zero_and]
  · rw [fa, ea, ha]
  · rw [fb, eb, hb]
  · rw [fc, ec, hc]

theorem byte_and_ones {m : Byte} (v : Byte) (h : m = 0xFF#8) : v &&& m = v := h ▸ BitVec.and_allOnes

theorem start : Statement .start := by
  refine ⟨?_, ?_, ?_, ?_⟩ <;> decide

theorem stop : Statement .stop := by
  refine ⟨?_, ?_, ?_, ?_⟩ <;> decide

theorem writeByte (c : Byte) : Statement (.writeByte c) := by
  obtain ⟨eo, er, -, -, -⟩ := fields_wordOfFields 0x3 0 0 c
  exact ⟨er, by rw [encode, eo]; decide, by rw [encode, eo]; decide,
    and_mask (by simp only [usedBits]; decide) (by simp only [usedBits]; decide) (by simp only [usedBits]; decide)
      (byte_and_ones c (by simp only [usedBits]; decide))⟩

theorem readAck : Statement .readAck := by
  refine ⟨?_, ?_, ?_, ?_⟩ <;> decide

theorem readNack : Statement .readNack := by
  refine ⟨?_, ?_, ?_, ?_⟩ <;> decide

theorem getStatus : Statement .getStatus := by
  refine ⟨?_, ?_, ?_, ?_⟩ <;> decide

theorem readReg (offset : Byte) : Statement (.readReg offset) := by
  obtain ⟨eo, er, -, -, -⟩ := fields_wordOfFields 0x7 0 0 offset
  exact ⟨er, by rw [encode, eo]; decide, by rw [encode, eo]; decide,
    and_mask (by simp only [usedBits]; decide) (by simp only [usedBits]; decide) (by simp only [usedBits]; decide)
      (byte_and_ones offset (by simp only [usedBits]; decide))⟩

theorem writeTxn (dev reg data : Byte) : Statement (.writeTxn dev reg data) := by
  obtain ⟨eo, er, -, -, -⟩ := fields_wordOfFields 0x8 dev reg data
  exact ⟨er, by rw [encode, eo]; decide, by rw [encode, eo]; decide,
    and_mask (by simp only [usedBits]; decide) (byte_and_ones dev (by simp only [usedBits]; decide))
      (byte_and_ones reg (by simp only [usedBits]; decide)) (byte_and_ones data (by simp only [usedBits]; decide))⟩

theorem readTxn (dev reg : Byte) : Statement (.readTxn dev reg) := by
  obtain ⟨eo, er, -, -, -⟩ := fields_wordOfFields 0x9 dev reg 0
  exact ⟨er, by rw [encode, eo]; decide, by rw [encode, eo]; decide,
    and_mask (by simp only [usedBits]; decide) (byte_and_ones dev (by simp only [usedBits]; decide))
      (byte_and_ones reg (by simp only [usedBits]; decide)) (by simp only [usedBits]; decide)⟩

theorem fsmEvent : Statement .fsmEvent := by
  refine ⟨?_, ?_, ?_, ?_⟩ <;> decide

end Sys2Proof.Laws.EncodingShape
end

