-- ==== Sys2Proof/Laws/RunEnd.lean ====
section
/-! SUPPORT. That R13's end of a run is one: a run that has ended is of one of three kinds and stays as it is, and a run
whose operation BUS still answers goes on. -/

namespace Sys2Proof.Machine

open Sys2Proof.Safety

/-- The step of a context with no enabled step changes nothing (R95, R196). -/
theorem contextStep_of_disabled {c : Ctx} {s : State} (h0 : s.fault = 0) (h : contextEnabled c s = false) :
    contextStep c s = .next s := by
  have hport : (port c s).isEmpty = true → issueNext c s = .next s := fun hp => by
    simp [issueNext, List.isEmpty_iff.1 hp]
  unfold contextEnabled at h
  unfold contextStep
  cases hq : s.seq with
  | idle => exact hport (by simpa [h0, hq] using h)
  | run r =>
    by_cases ho : r.owner = c
    · have hw : waitEnabled r s = false := by simpa [h0, hq, ho] using h
      simp only [waitEnabled, Bool.and_eq_false_iff, Bool.or_eq_false_iff] at hw
      have hstay : continueCommand r s = .ok s := by
        unfold continueCommand
        rcases hw with hw | ⟨hi, hb⟩
        · simp [hw]
        · simp [hi, poll, Option.isNone_iff_eq_none.1 (by simpa using hb)]
      simp [ho, hstay, conclude]
    · simpa [ho] using hport (by simpa [h0, hq, ho] using h)

/-- ENGINE's move with an answer that gives it no step changes nothing (R103). -/
theorem engineStep_of_disabled {a : Answer} {s : State} (h0 : s.fault = 0) (h : engineEnabled a s = false) :
    engineStep a s = s := by
  unfold engineStep
  cases hp : s.pend with
  | none => rfl
  | some op => simp [show admits s.cfg op a = false by simpa [engineEnabled, h0, hp] using h]

/-- ENGINE's move with an answer that gives it a step completes the operation: the trace grows (R43, R103). -/
theorem engineStep_of_enabled {a : Answer} {s : State} (h : engineEnabled a s = true) :
    (engineStep a s).trace.length = s.trace.length + 1 := by
  unfold engineEnabled at h
  unfold engineStep
  cases hp : s.pend with
  | none => simp [hp] at h
  | some op =>
    simp only [hp, Bool.and_eq_true] at h
    obtain ⟨-, -, -, -, -, -, -, e, he⟩ := complete_keeps op a s
    simp [h.2, he]

theorem contextEnabled_takeMove (c : Ctx) (s : State) : contextEnabled c (takeMove s).2 = contextEnabled c s := by
  unfold takeMove
  split <;> rfl

theorem engineEnabled_takeMove (a : Answer) (s : State) : engineEnabled a (takeMove s).2 = engineEnabled a s := by
  unfold takeMove
  split <;> rfl

/-- A step whose move names an agent with no enabled step uses up the move alone. -/
theorem step_of_disabled {s : State} (h0 : s.fault = 0) (hc : ∀ c, contextEnabled c s = false)
    (he : ∀ a, (takeMove s).1 = .engine a → engineEnabled a s = false) : step s = .next (takeMove s).2 := by
  have h0' : (takeMove s).2.fault = 0 := by simpa using h0
  rw [step, if_neg (by simpa using h0)]
  cases hm : (takeMove s).1 with
  | context c => exact contextStep_of_disabled h0' ((contextEnabled_takeMove c s).trans (hc c))
  | engine a =>
    exact congrArg _ (engineStep_of_disabled h0' ((engineEnabled_takeMove a s).trans (he a hm)))

/-- A faulted block has ended (R13, R188). -/
theorem faultedEnd_iff {s : State} : FaultedEnd s ↔ s.fault ≠ 0 :=
  ⟨And.right, fun h => ⟨⟨fun _ => by rw [contextEnabled, decide_eq_false h]; rfl, fun _ _ _ => by rw [engineEnabled, decide_eq_false h]; rfl⟩, h⟩⟩

/-- A run that has ended is a faulted run, a hang or a successful end (R13); `FAULT` and the fields held tell which. -/
theorem runEnded_cases {s : State} (h : RunEnded s) : FaultedEnd s ∨ Hang s ∨ SuccessfulEnd s := by
  by_cases h0 : s.fault = 0
  · by_cases hi : s.seq = .idle ∧ s.pend = none
    · exact .inr (.inr ⟨h, h0, hi⟩)
    · exact .inr (.inl ⟨h, h0, by tauto⟩)
  · exact .inl ⟨h, h0⟩

/-- A step of a run that has ended without a fault uses up a move alone, and the run has still ended (R13). -/
theorem step_of_ended {s : State} (h0 : s.fault = 0) (h : RunEnded s) :
    step s = .next (takeMove s).2 ∧ RunEnded (takeMove s).2 :=
  ⟨step_of_disabled h0 h.contexts (h.engine 0),
    fun c => (contextEnabled_takeMove c s).trans (h.contexts c),
    fun n a ha => (engineEnabled_takeMove a s).trans (h.engine (n + 1) a ha)⟩

/-- An ended run stays ended, and the block as it is (R13). -/
theorem ended_stays {run : Nat → State} {n : Nat} (hrun : IsRun run) (h : RunEnded (run n)) {m : Nat} (hm : n ≤ m) :
    RunEnded (run m) ∧ SameBlock (run n) (run m) := by
  induction m, hm using Nat.le_induction with
  | base => exact ⟨h, sameBlock_refl _⟩
  | succ m hm ih =>
    obtain ⟨hs, he⟩ := step_of_ended (step_cases (hrun m)).1 ih.1
    rw [hrun m] at hs
    rw [Host.Outcome.next.inj hs]
    exact ⟨he, sameBlock_trans ih.2 (sameBlock_takeMove _)⟩

/-- Where a move to come is an answer to the operation in flight, the run gets to an answer and the operation is completed,
whatever the contexts wait for: such a run has not ended (R13, R103). -/
theorem answered_goes_on {run : Nat → State} (hrun : IsRun run) {a : Answer} {k n : Nat}
    (hm : comingMove k (run n) = .engine a) (ha : engineEnabled a (run n) = true)
    (hc : ∀ c, contextEnabled c (run n) = false) :
    ∃ m, n < m ∧ (run m).trace.length = (run n).trace.length + 1 := by
  have hgrow : ∀ {j b}, (takeMove (run j)).1 = .engine b → engineEnabled b (run j) = true →
      (run (j + 1)).trace.length = (run j).trace.length + 1 := fun {j b} hb hen => by
    have hstep := hrun j
    rw [step_of_move (step_cases hstep).1 (Prod.ext hb rfl)] at hstep
    rw [← Host.Outcome.next.inj hstep, engineStep_of_enabled ((engineEnabled_takeMove b (run j)).trans hen), takeMove_trace]
  induction k generalizing n with
  | zero => exact ⟨n + 1, by omega, hgrow hm ha⟩
  | succ k ih =>
    by_cases hnow : ∃ b, (takeMove (run n)).1 = .engine b ∧ engineEnabled b (run n) = true
    · obtain ⟨b, hb, hen⟩ := hnow
      exact ⟨n + 1, by omega, hgrow hb hen⟩
    · have hs := step_of_disabled (step_cases (hrun n)).1 hc fun b hb => by simpa using fun hen => hnow ⟨b, hb, hen⟩
      have hn : run (n + 1) = (takeMove (run n)).2 := Host.Outcome.next.inj ((hrun n).symm.trans hs)
      obtain ⟨m, hlt, ht⟩ := ih (n := n + 1) (by rw [hn]; exact hm) (by rw [hn, engineEnabled_takeMove]; exact ha)
        fun c => by rw [hn, contextEnabled_takeMove]; exact hc c
      exact ⟨m, by omega, by rw [ht, hn, takeMove_trace]⟩

end Sys2Proof.Machine
end

