-- ==== Sys2Proof/Tests/Slice0.lean ====
section
/-! SUPPORT. The model's own tests: ill-formed terms the checks refuse, command words written out from R70 and R72,
single steps with results from spec/95_test_vectors.md, and a state for the hypotheses of each statement. -/

namespace Sys2Proof.Tests

open Sys2Proof.Machine Sys2Proof.Safety

-- ## The states the tests start from

/-- A configuration with the OPEN parameters of R8 chosen for the tests; otherwise the default one. -/
def cfg : Config where
  checkMode := .inert
  addrMode := .raw
  waitBound := none
  fsmDev := 0x50
  fsmReg := 0x01
  statusCodes := .default
  psBits := 0b011
  admitBusError := true
  dataReset := 0xD7

/-- Right after reset. -/
def fresh : State := .resetOf cfg

/-- After START. -/
def started : State := { fresh with ctrlInt := true, ctrlEn := true, owned := true, afterStart := true, trace := [.start] }

/-- After START and an acknowledged WRITE_BYTE 0x50. -/
def held : State := { started with afterStart := false, data := 0x50, trace := [.start, .addr 0x50 .ack] }

/-- The operation `op` in flight on a held bus. -/
def busy (op : BusOp) : State := { held with ctrlInt := false, pend := some op }

/-- A stop in flight with a start latched behind it. -/
def latched : State := { busy .stop with startLatched := true }

/-- The same state with LIVE checks and the shifted address form. -/
def live (s : State) : State := { s with cfg := { s.cfg with checkMode := .live, addrMode := .shifted } }

/-- The same state with WAIT_BOUND = n. -/
def bounded (n : Nat) (s : State) : State := { s with cfg := { s.cfg with waitBound := some n } }

/-- MAIN's command waiting on its phase `p`, with `b` in SEQ.BYTE. -/
def runOf (cmd : BlockCmd) (p : Nat) (c : Config) : Run where
  owner := .main
  cmd := cmd
  prog := program c cmd
  idx := p
  waiting := true
  polls := 0
  byte := 0

/-- `s` with MAIN's command waiting on its phase `p`, and MAIN next to move. -/
def running (cmd : BlockCmd) (p : Nat) (s : State) : State :=
  { s with seq := .run (runOf cmd p s.cfg), sched := [.context .main] }

/-- `s` with STATUS.CODE the code of `n`. -/
def coded (n : StatusName) (s : State) : State := { s with code := codeBits s.cfg n }

/-- `s` with ENGINE next to move, answered `a`. -/
def answered (a : Answer) (s : State) : State := { s with sched := [.engine a] }

/-- `s` with one word at MAIN's port and MAIN next to move. -/
def offered (w : Word) (s : State) : State := { s with mainPort := [w], sched := [.context .main] }

/-- `s` with STEP = n. -/
def atStep (n : Byte) (s : State) : State := { s with stepCtr := n }

/-- The outcome is a next state that meets `p`. -/
def nextIs (o : Host.Outcome State Fault Refusal) (p : State → Bool) : Bool :=
  match o with
  | .next t => p t
  | .fault _ => false
  | .refused _ => false

-- ## Ill-formed terms (R8, R80, R82)

theorem test_wf_writeByte : (AsmLine.writeByte 256).wf = false ∧ (AsmLine.writeByte 255).wf = true := by decide
theorem test_wf_readReg : (AsmLine.readReg 256).wf = false ∧ (AsmLine.readReg 0).wf = true := by decide
theorem test_wf_writeTxn :
    (AsmLine.writeTxn 256 1 2).wf = false ∧ (AsmLine.writeTxn 0 256 2).wf = false ∧
      (AsmLine.writeTxn 0 1 256).wf = false ∧ (AsmLine.writeTxn 255 255 255).wf = true := by decide
theorem test_wf_readTxn :
    (AsmLine.readTxn 256 1).wf = false ∧ (AsmLine.readTxn 1 256).wf = false ∧
      (AsmLine.readTxn 255 255).wf = true := by decide
theorem test_wf_operand_refused : (AsmLine.writeTxn 0 256 2).command = none := by decide

/-- A code with a low bit set, and a code two names share. -/
theorem test_wf_statusCodes :
    StatusCodes.wf { StatusCodes.default with startSent := 0x09 } = false ∧
      StatusCodes.wf { StatusCodes.default with startSent := 0x10 } = false ∧
      StatusCodes.default.wf = true := by decide

theorem test_wf_config :
    Config.wf { cfg with waitBound := some 0 } = false ∧ Config.wf { cfg with waitBound := some 1 } = true ∧
      Config.wf { cfg with statusCodes := { StatusCodes.default with noInfo := 0x00 } } = false := by decide

-- ## Command words, bit by bit from R70 and R72: OP, RSV, A, B, C

theorem test_decode_start : decode (0b0001#4 ++ 0b0000#4 ++ 0#24 : Word) = .ok .start := by decide
theorem test_decode_stop : decode (0b0010#4 ++ 0b0000#4 ++ 0#24 : Word) = .ok .stop := by decide
theorem test_decode_writeByte :
    decode (0b0011#4 ++ 0b0000#4 ++ 0#16 ++ 0b01010000#8 : Word) = .ok (.writeByte 0x50) := by decide
theorem test_decode_readAck : decode (0b0100#4 ++ 0b0000#4 ++ 0#24 : Word) = .ok .readAck := by decide
theorem test_decode_readNack : decode (0b0101#4 ++ 0b0000#4 ++ 0#24 : Word) = .ok .readNack := by decide

/-- V7: the operand fields are ignored. -/
theorem test_decode_getStatus :
    decode (0b0110#4 ++ 0b0000#4 ++ 0b101010111100110111101111#24 : Word) = .ok .getStatus := by decide

theorem test_decode_readReg :
    decode (0b0111#4 ++ 0b0000#4 ++ 0#16 ++ 0b00000100#8 : Word) = .ok (.readReg 0x04) := by decide
theorem test_decode_writeTxn :
    decode (0b1000#4 ++ 0b0000#4 ++ 0b01010000#8 ++ 0b00000001#8 ++ 0b10101010#8 : Word) =
      .ok (.writeTxn 0x50 0x01 0xAA) := by decide

/-- V5: field C is ignored. -/
theorem test_decode_readTxn :
    decode (0b1001#4 ++ 0b0000#4 ++ 0b01010000#8 ++ 0b00000001#8 ++ 0b11111111#8 : Word) =
      .ok (.readTxn 0x50 0x01) := by decide

theorem test_decode_fsmEvent : decode (0b1010#4 ++ 0b0000#4 ++ 0#24 : Word) = .ok .fsmEvent := by decide

/-- V6, V8 to V11. -/
theorem test_decode_illegal :
    decode 0x6FFFFFFF = .error .reservedField ∧ decode 0x00000000 = .error .opcode ∧
      decode 0xB0000000 = .error .opcode ∧ decode 0xF0000000 = .error .opcode ∧
      decode 0x11000000 = .error .reservedField := by decide

theorem test_decodeTableWord : decodeTableWord 32 0x805001AA = some (.writeTxn 0x50 0x01 0xAA) := by decide

-- ## The assembler (R82 to R84)

theorem test_assemble_writeTxn :
    assemble "WRITE_TXN 0x50, 0x01, 0xAA     ; 0x805001AA".toList = .ok (some 0x805001AA) := by decide
theorem test_assemble_decimal : assemble "WRITE_BYTE 80".toList = .ok (some 0x30000050) := by decide
theorem test_assemble_getLast : assemble "GET_LAST".toList = .ok (some 0x70000004) := by decide
theorem test_assemble_comment : assemble "; MAIN".toList = .ok none := by decide
theorem test_assemble_range : assemble "READ_REG 256".toList = .error .operandRange := by decide

-- ## The commands in their issue step

/-- V1, and the CTRL of P1's step 1. -/
theorem test_start_triggers :
    nextIs (exec .start fresh) (fun t => ctrlByte t == 0x24 && t.pend == some .start && t.fault == 0) = true := by decide

/-- P6: a START during a stop is latched, CTRL = 0x34. -/
theorem test_start_latched :
    nextIs (exec .start (busy .stop))
      (fun t => ctrlByte t == 0x34 && t.startLatched && t.pend == some .stop) = true := by decide

/-- V14: CTRL = 0x14 at once, with the response. -/
theorem test_stop_retires :
    nextIs (exec .stop started) (fun t => ctrlByte t == 0x14 && t.responses == [(.main, .nothing)]) = true := by decide

/-- V15: the bus is not owned. -/
theorem test_stop_unowned :
    nextIs (exec .stop fresh) (fun t => t.fault == 4 && ctrlByte t == 0x00 && t.responses == []) = true := by decide

/-- P1's steps 3 and 5: a transmit gives CTRL = 0x44; DATA holds the byte. -/
theorem test_writeByte_triggers :
    nextIs (exec (.writeByte 0x51) started) (fun t => ctrlByte t == 0x44 && t.data == 0x51) = true := by decide

/-- V23: a stop is in flight. -/
theorem test_writeByte_busy :
    nextIs (exec (.writeByte 0x01) (busy .stop)) (fun t => t.fault == 3 && ctrlByte t == 0x14) = true := by decide

/-- V19: a receive right after a start. -/
theorem test_readAck_afterStart :
    nextIs (exec .readAck started) (fun t => t.fault == 4 && t.pend == none) = true := by decide

theorem test_readAck_triggers :
    nextIs (exec .readAck held) (fun t => ctrlByte t == 0x44 && t.pend == some .rxAck) = true := by decide

/-- The image 0x84 with INT cleared (R77, R92). -/
theorem test_readNack_triggers :
    nextIs (exec .readNack held) (fun t => ctrlByte t == 0x04 && t.pend == some .rxNack) = true := by decide

theorem test_readNack_busy : nextIs (exec .readNack (busy .rxAck)) (fun t => t.fault == 3) = true := by decide

/-- V24. -/
theorem test_getStatus_reset :
    nextIs (exec .getStatus fresh) (fun t => t.responses == [(.main, .byte 0xF8)]) = true := by decide

/-- V58: exempt from CONCURRENT_PATHS. -/
theorem test_getStatus_inside_event :
    nextIs (exec .getStatus (atStep 3 held)) (fun t => t.fault == 0 && t.responses.length == 1) = true := by decide

/-- V60: START in flight and its issuer waiting. -/
theorem test_readReg_ctrl :
    nextIs (exec .start fresh) (fun s => nextIs (exec (.readReg 0x00) s)
      fun t => t.responses == [(.main, .byte 0x24)]) = true := by decide

/-- V46: the raw STATUS, code 0x08 with PS = 0b011. -/
theorem test_readReg_status :
    nextIs (exec (.readReg 0x01) (coded .startSent held)) (fun t => t.responses == [(.main, .byte 0x0B)]) = true := by
  decide

/-- P1's step 1. -/
theorem test_writeTxn_begins :
    nextIs (exec (.writeTxn 0x50 0x01 0xAA) fresh)
      (fun t => ctrlByte t == 0x24 && t.pend == some .start && t.responses == []) = true := by decide

/-- V57. -/
theorem test_writeTxn_inside_event :
    nextIs (exec (.writeTxn 0x50 0x01 0xAA) (atStep 3 held)) (fun t => t.fault == 2 && t.stepCtr == 3) = true := by decide

/-- V37: the start of phase 1 is latched behind a stop. -/
theorem test_readTxn_latched :
    nextIs (exec (.readTxn 0x00 0x00) (busy .stop)) (fun t => t.startLatched && t.fault == 0) = true := by decide

/-- R127: the fifth phase sends the address byte with the read direction. -/
theorem test_readTxn_program :
    (program (live fresh).cfg (.readTxn 0x28 0x01))[4]? = some (.tx 0x51) ∧
      (program cfg (.readTxn 0x28 0x01)).length = 9 := by decide

/-- V40. -/
theorem test_fsmEvent_latched :
    nextIs (exec .fsmEvent (busy .stop)) (fun t => t.stepCtr == 1 && t.startLatched && ctrlByte t == 0x34) = true := by
  decide

/-- V45's first half: state 7 arms the capture latch; CTRL = 0x04. -/
theorem test_fsmEvent_state7 :
    nextIs (exec .fsmEvent (atStep 7 held)) (fun t => t.stepCtr == 8 && t.cap && ctrlByte t == 0x04) = true := by decide

-- ## One step of ENGINE and of a waiting command

/-- V16: a second start is a restart. -/
theorem test_engine_restart :
    nextIs (step (answered .done (busy .start))) (fun t => t.trace.getLast? == some .restart && statusRaw t == 0x13) =
      true := by decide

/-- V17: bit 0 of the address byte is 1. -/
theorem test_engine_address :
    nextIs (step (answered (.acked .ack) { busy .tx with afterStart := true, data := 0x51 }))
      (fun t => statusValue t == 0x40 && t.trace.getLast? == some (.addr 0x51 .ack) && !t.afterStart) = true := by decide

/-- V18: a data byte not acknowledged leaves the bus held. -/
theorem test_engine_data_nack :
    nextIs (step (answered (.acked .nack) { busy .tx with data := 0x07 }))
      (fun t => statusValue t == 0x30 && t.owned && t.trace.getLast? == some (.tx 0x07 .nack)) = true := by decide

/-- V45's second half. -/
theorem test_engine_capture :
    nextIs (step (answered (.byte 0x9C) { busy .rxNack with cap := true }))
      (fun t => t.last == 0x9C && !t.cap && statusValue t == 0x58 && t.ctrlInt) = true := by decide

/-- P6: a latched start begins when the stop completes; INT stays 0. -/
theorem test_engine_stop :
    nextIs (step (answered .done latched))
      (fun t => t.pend == some .start && !t.owned && !t.ctrlInt && statusValue t == 0xF8) = true := by decide

/-- V22. -/
theorem test_engine_busError :
    nextIs (step (answered .busError { busy .start with owned := false, ctrlSta := true }))
      (fun t => ctrlByte t == 0xA4 && !t.owned && statusRaw t == 0x03) = true := by decide

/-- V29: RESULT of a live write. -/
theorem test_retire_write :
    nextIs (step (running (.writeTxn 0x28 0x01 0xAA) 4 (coded .dataTxAck (live held))))
      (fun t => t.result == 0x00100000 && ctrlByte t == 0x14 && t.seq == .idle) = true := by decide

/-- P2: the third byte in RESULT and LAST. -/
theorem test_retire_read :
    nextIs (step (running (.readTxn 0x00 0x00) 8 { held with data := 0x7F }))
      (fun t => t.result == 0x0010007F && t.last == 0x7F) = true := by decide

/-- P4: the address is not acknowledged. -/
theorem test_abort_nack :
    nextIs (step (running (.writeTxn 0x28 0x10 0x55) 2 (coded .slaWNack (live held))))
      (fun t => t.result == 0x00222000 && ctrlByte t == 0x14) = true := by decide

/-- V35: a bus error at phase 8 aborts without a stop; LAST is not written. -/
theorem test_abort_busError :
    nextIs (step (running (.readTxn 0x28 0x01) 8 (coded .busError (live { held with owned := false }))))
      (fun t => t.result == 0x00380000 && t.pend == none && t.last == 0x00) = true := by decide

/-- P5: the second poll of two. -/
theorem test_timeout :
    nextIs (step (bounded 2 { running (.readTxn 0x50 0x01) 3 (busy .tx) with
        seq := .run { runOf (.readTxn 0x50 0x01) 3 cfg with polls := 1 } }))
      (fun t => t.result == 0x00430000 && t.pend == some .tx && t.seq == .idle) = true := by decide

/-- V36: after a bus error the next phase finds the bus not held. -/
theorem test_phase_after_busError :
    nextIs (step (running (.writeTxn 0x50 0x01 0xAA) 2 (coded .busError { held with owned := false })))
      (fun t => t.fault == 4 && t.data == 0x50) = true := by decide

/-- V56: ILLEGAL_COMMAND before CONCURRENT_PATHS. -/
theorem test_illegal_first : nextIs (step (offered 0xF1000000 (atStep 3 held))) (fun t => t.fault == 1) = true := by
  decide

/-- V42: an event of HANDLER while MAIN's transaction waits. -/
theorem test_handler_conflict :
    nextIs (step { running (.writeTxn 0x50 0x01 0xAA) 1 (busy .start) with
        handlerPort := [0xA0000000], sched := [.context .handler] })
      (fun t => t.fault == 2 && t.stepCtr == 0) = true := by decide

/-- A word placed after reset runs in the very next step. -/
theorem test_fetch_after_reset :
    nextIs (step (State.reset.withFetchWord 32 0x10000000)) (fun t => ctrlByte t == 0x24) = true := by decide

-- ## The status decoder (V47 to V55)

theorem test_classify :
    classify .default 0x38 = some .arbLost ∧ classify .default 0x07 = none ∧ classify .default 0x60 = none := by decide

theorem test_failKind :
    ([0x20, 0x30, 0x48].all fun v => failKind .default v == .failNack) = true ∧
      ([0x00, 0x18, 0x40, 0x58, 0xF8].all fun v => failKind .default v == .failUnexpected) = true := by decide

theorem test_check :
    check .default (.readTxn 0 0) 9 0x77 = true ∧ check .default (.writeTxn 0 0 0) 5 0x77 = true ∧
      check .default (.readTxn 0 0) 4 0x08 = false := by decide

/-- V36: a phase of a WRITE_TXN under INERT on a bus a bus error has released. -/
theorem test_released_bus_phase :
    nextIs (step (running (.writeTxn 0x50 0x01 0xAA) 2 { held with owned := false, trace := [.start, .busError] }))
      (fun t => t.fault == 4 && t.pend == none && t.trace == [.start, .busError]) = true := by decide

/-- V33; and by R133 phase 8 of a READ_TXN under LIVE fails on DATA_RX_ACK, 0x50, and leaves LAST. -/
theorem test_live_read_last_byte :
    nextIs (step (running (.readTxn 0x28 0x01) 8 (coded .dataRxNack (live { held with data := 0x03 }))))
        (fun t => t.result == 0x00100003 && t.last == 0x03) = true ∧
      nextIs (step (running (.readTxn 0x28 0x01) 8 (coded .dataRxAck (live { held with data := 0x03 }))))
        (fun t => t.result == 0x00385000 && t.last == 0x00) = true := by decide

/-- A wait whose flag is 0 has a step where it is bounded, and none where it is not (R95, R228). -/
theorem test_continuationEnabled :
    Safety.continuationEnabled .main (bounded 2 (running .start 1 (busy .start))) = true ∧
      Safety.continuationEnabled .main (running .start 1 (busy .start)) = false ∧
      Safety.continuationEnabled .main (running .start 1 held) = true ∧
      Safety.continuationEnabled .handler (running .start 1 held) = false := by decide

-- ## How a run ends (R13)

/-- With an answer still to come the run has not ended, though no context has a step. -/
theorem test_not_a_hang :
    let s : State := { running .start 1 (busy .start) with sched := [.context .main, .engine .done] }
    (∀ c, contextEnabled c s = false) ∧ ¬ Hang s := by
  refine ⟨fun c => by cases c <;> decide, fun h => ?_⟩
  exact absurd (h.1.engine 1 .done rfl) (by decide)

/-- V26: a START that BUS never answers hangs, after the moves listed; that no free move is an answer is a premise. -/
theorem test_hang (hfree : ∀ n, Config.freeMove n = .context .handler) : Hang (running .start 1 (busy .start)) := by
  have hlater : ∀ n (s : State), s.sched = [] → comingMove n s = .context .handler := by
    intro n
    induction n with
    | zero => intro s hs; simp [comingMove, takeMove, hs, hfree]
    | succ n ih => intro s hs; exact ih _ (by simp [takeMove, hs])
  refine ⟨⟨fun c => by cases c <;> decide, fun n a hn => ?_⟩, by decide, .inl (by decide)⟩
  cases n with
  | zero => cases hn
  | succ n => exact nomatch (hlater n _ rfl).symm.trans hn

/-- With nothing in flight, nothing at the ports and no command held, the run has ended well. -/
theorem test_successful_end : SuccessfulEnd held :=
  ⟨⟨fun c => by cases c <;> decide, fun _ _ _ => rfl⟩, by decide⟩

-- ## Witnesses: a state and operands that meet the hypotheses of each statement

theorem witness_UnusedFieldsIgnored :
    decode 0x900000FF = .ok (.readTxn 0 0) ∧
      (0x90000000 : Word) &&& usedBits (.readTxn 0 0) = 0x900000FF &&& usedBits (.readTxn 0 0) := by decide

/-- ResetStateValues, ResetMeetsLaunchAndInvariants. -/
theorem witness_ResetStateValues : cfg.wf = true ∧ Config.default.wf = true := by decide

/-- MAIN free and next to move, a legal word at its port. -/
theorem witness_StepRunsDecodedCommand :
    (offered 0xA0000000 fresh).fault = 0 ∧ takeMove (offered 0xA0000000 fresh) = (.context .main, { fresh with mainPort := [0xA0000000] }) ∧
      outstanding .main (offered 0xA0000000 fresh) = false ∧ port .main (offered 0xA0000000 fresh) = 0xA0000000 :: [] ∧
      decode 0xA0000000 = .ok .fsmEvent := by decide

/-- HANDLER free while MAIN's command runs. -/
theorem witness_StepRunsDecodedCommand_handler :
    outstanding .handler (running .start 1 (busy .start)) = false ∧
      outstanding .main (running .start 1 (busy .start)) = true := by decide

theorem witness_PlacedWordRunsNext :
    State.reset.fault = 0 ∧ decodeTableWord 32 0x20000000 = some .stop := by decide

/-- Each kind of illegal word, at the bounds of its range. -/
theorem witness_IllegalWordFaults :
    (offered 0x00000000 fresh).fault = 0 ∧
      takeMove (offered 0x00000000 fresh) = (.context .main, { fresh with mainPort := [0x00000000] }) ∧
      outstanding .main (offered 0x00000000 fresh) = false ∧ port .main (offered 0x00000000 fresh) = 0x00000000 :: [] ∧
      opField 0x00000000 = 0x0 ∧ 0xB ≤ (opField 0xB0000000).toNat ∧ 0xB ≤ (opField 0xF0000000).toNat ∧
      rsvField 0x11000000 ≠ 0x0 ∧ rsvField 0x6F000000 ≠ 0x0 := by decide

theorem witness_FaultedBlockHasNoStep : (raiseFault .illegalCommand fresh).fault ≠ 0 := by decide

theorem witness_FaultingStepChangesFaultAlone :
    nextIs (exec .stop fresh) (fun t => t.fault != 0) = true ∧
      nextIs (step (offered 0x20000000 fresh)) (fun t => t.fault != 0) = true := by decide

/-- (a) with each kind of command, (b) at both ends of the range of STEP. -/
theorem witness_ConcurrentPathsFault :
    (running .start 1 (busy .start)).fault = 0 ∧
      (running .start 1 (busy .start)).seq = .run (runOf .start 1 cfg) ∧ isPureRead .fsmEvent = false ∧
      isPureRead .stop = false ∧ (atStep 1 held).fault = 0 ∧ 1 ≤ (atStep 1 held).stepCtr.toNat ∧
      (atStep 8 held).stepCtr.toNat ≤ 8 ∧ isBlockingPath .stop = true := by decide

theorem witness_TriggerWhileBusyFaults :
    (busy .tx).pend = some .tx ∧ CanIssue (busy .tx) ∧ CanIssue (busy .stop) ∧ latched.pend = some .stop ∧
      CanIssue latched ∧ latched.startLatched = true := by decide

theorem witness_TriggerWhileBusyFaults_event :
    (atStep 1 (busy .tx)).pend = some .tx ∧ CanEvent (atStep 1 (busy .tx)) ∧ CanEvent (atStep 8 (busy .stop)) ∧
      (atStep 1 (busy .tx)).stepCtr ∈ [1#8, 2#8, 4#8, 5#8, 6#8, 7#8, 8#8] ∧
      (atStep 8 (busy .stop)).stepCtr ∈ [1#8, 2#8, 4#8, 5#8, 6#8, 7#8, 8#8] ∧ CanEvent (atStep 3 (busy .tx)) ∧
      (atStep 3 (busy .tx)).stepCtr ∈ [0#8, 3#8] ∧ CanEvent (atStep 0 latched) ∧
      (atStep 0 latched).stepCtr ∈ [0#8, 3#8] ∧ (atStep 0 latched).startLatched = true := by decide

theorem witness_ProtocolViolationFaults :
    fresh.pend = none ∧ CanIssue fresh ∧ fresh.owned = false ∧ started.pend = none ∧ CanIssue started ∧
      started.owned = true ∧ started.afterStart = true := by decide

theorem witness_ProtocolViolationFaults_event :
    CanEvent (atStep 1 fresh) ∧ (atStep 1 fresh).owned = false ∧
      (atStep 1 fresh).stepCtr ∈ [1#8, 2#8, 4#8, 5#8, 6#8, 7#8, 8#8] ∧
      (atStep 8 fresh).stepCtr ∈ [1#8, 2#8, 4#8, 5#8, 6#8, 7#8, 8#8] ∧ CanEvent (atStep 5 started) ∧
      (atStep 5 started).owned = true ∧ (atStep 5 started).afterStart = true ∧
      (atStep 5 started).stepCtr ∈ [5#8, 6#8, 7#8] ∧ (atStep 7 started).stepCtr ∈ [5#8, 6#8, 7#8] := by decide

/-- A running transaction whose next phase, and whose abort's stop, finds an operation in flight. -/
theorem witness_TriggerWhileBusyFaults_running :
    let i : State := running (.writeTxn 0x50 0x01 0xAA) 2 { held with pend := some .tx }
    let l : State := running (.readTxn 0x28 0x01) 2 (coded .slaWNack (live { held with pend := some .stop }))
    let ri : Run := runOf (.writeTxn 0x50 0x01 0xAA) 2 cfg
    let rl : Run := runOf (.readTxn 0x28 0x01) 2 (live held).cfg
    WaitStep i { i with sched := [] } ri ∧ i.pend = some .tx ∧ i.ctrlInt = true ∧ PhasePasses ri i ∧
      ri.prog[ri.idx]? = some (.tx 0x01) ∧
      WaitStep l { l with sched := [] } rl ∧ l.pend = some .stop ∧ l.ctrlInt = true ∧ l.cfg.checkMode = .live ∧
      expected rl.cmd rl.idx = some .slaWAck ∧ statusRaw l &&& 0xF8 ≠ l.cfg.statusCodes.value .slaWAck ∧
      l.owned = true := by decide

/-- A running transaction on a bus a bus error has released, before a byte, before a receive and before its stop. -/
theorem witness_ProtocolViolationFaults_running :
    let w (p : Nat) : State := running (.writeTxn 0x50 0x01 0xAA) p { held with owned := false }
    let d (p : Nat) : State := running (.readTxn 0x50 0x01) p { held with owned := false }
    (∀ p ∈ [1, 2, 3, 4], WaitStep (w p) { w p with sched := [] } (runOf (.writeTxn 0x50 0x01 0xAA) p cfg) ∧
        (w p).pend = none ∧ (w p).ctrlInt = true ∧ PhasePasses (runOf (.writeTxn 0x50 0x01 0xAA) p cfg) (w p) ∧
        (w p).owned = false) ∧
      (∀ p ∈ [5, 7, 8], WaitStep (d p) { d p with sched := [] } (runOf (.readTxn 0x50 0x01) p cfg) ∧
        (d p).pend = none ∧ (d p).ctrlInt = true ∧ PhasePasses (runOf (.readTxn 0x50 0x01) p cfg) (d p) ∧
        (d p).owned = false) ∧
      (program cfg (.writeTxn 0x50 0x01 0xAA))[1]? = some (.tx 0x50) ∧
      (program cfg (.writeTxn 0x50 0x01 0xAA))[4]? = some .stop ∧
      (program cfg (.readTxn 0x50 0x01))[5]? = some .rxAck ∧
      (program cfg (.readTxn 0x50 0x01))[7]? = some .rxNack ∧
      (program cfg (.readTxn 0x50 0x01))[8]? = some .stop := by decide

/-- A running transaction whose receive would follow a start directly. -/
theorem witness_ProtocolViolationFaults_receive :
    let s : State := running (.readTxn 0x50 0x01) 7 started
    let r : Run := runOf (.readTxn 0x50 0x01) 7 cfg
    WaitStep s { s with sched := [] } r ∧ s.pend = none ∧ s.ctrlInt = true ∧ PhasePasses r s ∧
      r.prog[r.idx]? = some .rxNack ∧ s.owned = true ∧ s.afterStart = true := by decide

/-- StartTriggersAndWaits, WriteTxnBegins, ReadTxnBegins: on a free bus, and on a held one. -/
theorem witness_StartTriggersAndWaits :
    CanIssue fresh ∧ fresh.pend = none ∧ CanIssue held ∧ held.pend = none ∧ held.owned = true := by decide

theorem witness_StartDuringStopIsLatched :
    (busy .stop).pend = some .stop ∧ (busy .stop).startLatched = false ∧ CanIssue (busy .stop) ∧
      CanEvent (atStep 0 (busy .stop)) ∧ (atStep 0 (busy .stop)).stepCtr ∈ [0#8, 3#8] ∧
      CanEvent (atStep 3 (busy .stop)) ∧ (atStep 3 (busy .stop)).stepCtr ∈ [0#8, 3#8] := by decide

/-- StopTriggersAndRetires, WriteByteTriggersAndWaits: directly after a start, and after an address byte. -/
theorem witness_StopTriggersAndRetires :
    CanIssue started ∧ started.pend = none ∧ started.owned = true ∧ CanIssue held ∧ held.pend = none ∧
      held.owned = true := by decide

theorem witness_ReadByteTriggersAndWaits :
    CanIssue held ∧ held.pend = none ∧ held.owned = true ∧ held.afterStart = false := by decide

/-- StopNeverBlocks, GetStatusIsPureRead, ReadRegReadsMap: in the middle of anything. -/
theorem witness_StopNeverBlocks : (running .readAck 1 (busy .rxAck)).fault = 0 := by decide

/-- PrimitiveRetiresOnFlag: each kind of primitive. -/
theorem witness_PrimitiveRetiresOnFlag :
    WaitStep (running .start 1 started) { running .start 1 started with sched := [] } (runOf .start 1 cfg) ∧
      (running .start 1 started).ctrlInt = true ∧ (runOf .start 1 cfg).cmd = .start ∧
      (runOf (.writeByte 7) 1 cfg).cmd = .writeByte 7 ∧
      WaitStep (running .readNack 1 held) { running .readNack 1 held with sched := [] } (runOf .readNack 1 cfg) ∧
      (runOf .readNack 1 cfg).cmd = .readNack := by decide

theorem witness_UnboundedWaitHolds :
    WaitStep (running .start 1 (busy .start)) { running .start 1 (busy .start) with sched := [] } (runOf .start 1 cfg) ∧
      (running .start 1 (busy .start)).ctrlInt = false ∧ (running .start 1 (busy .start)).cfg.waitBound = none := by
  decide

/-- A poll below the bound of 2, and the last poll of a bound of 1. -/
theorem witness_BoundedWaitPollsAndTimesOut :
    WaitStep (bounded 2 (running .start 1 (busy .start))) { bounded 2 (running .start 1 (busy .start)) with sched := [] }
        (runOf .start 1 cfg) ∧
      (bounded 2 (running .start 1 (busy .start))).ctrlInt = false ∧
      (bounded 2 (running .start 1 (busy .start))).cfg.waitBound = some 2 ∧ (runOf .start 1 cfg).polls + 1 ≠ 2 ∧
      (bounded 1 (running .start 1 (busy .start))).cfg.waitBound = some 1 ∧ (runOf .start 1 cfg).polls + 1 = 1 := by
  decide

theorem witness_BoundedWaitPollsAndTimesOut_txn :
    WaitStep (bounded 1 (running (.readTxn 1 2) 3 (busy .tx)))
        { bounded 1 (running (.readTxn 1 2) 3 (busy .tx)) with sched := [] } (runOf (.readTxn 1 2) 3 cfg) ∧
      (bounded 1 (running (.readTxn 1 2) 3 (busy .tx))).ctrlInt = false ∧
      (runOf (.readTxn 1 2) 3 cfg).cmd = .readTxn 1 2 ∧ (runOf (.readTxn 1 2) 3 cfg).polls + 1 = 1 := by decide

/-- The four kinds of next phase: a restart, a transmit, and the two receives of a READ_TXN. -/
theorem witness_CompletedPhaseTriggersNext :
    let s (p : Nat) : State := running (.readTxn 1 2) p held
    let r (p : Nat) : Run := runOf (.readTxn 1 2) p cfg
    (∀ p ∈ [1, 3, 5, 7], WaitStep (s p) { s p with sched := [] } (r p) ∧ (s p).ctrlInt = true ∧ (r p).cmd = .readTxn 1 2 ∧
        (r p).idx ≠ 8 ∧ (s p).cfg.checkMode = .inert ∧ (s p).pend = none ∧ (s p).owned = true ∧
        (s p).afterStart = false) ∧
      (r 1).prog[(r 1).idx]? = some (.tx 1) ∧ (r 3).prog[(r 3).idx]? = some .start ∧
      (r 5).prog[(r 5).idx]? = some .rxAck ∧ (r 7).prog[(r 7).idx]? = some .rxNack := by decide

/-- The same for a WRITE_TXN under LIVE, whose status is the expected one. -/
theorem witness_CompletedPhaseTriggersNext_live :
    let s : State := running (.writeTxn 1 2 3) 2 (coded .slaWAck (live held))
    let r : Run := runOf (.writeTxn 1 2 3) 2 (live held).cfg
    WaitStep s { s with sched := [] } r ∧ s.ctrlInt = true ∧ expected r.cmd r.idx = some .slaWAck ∧
      statusRaw s &&& 0xF8 = s.cfg.statusCodes.value .slaWAck ∧ r.prog[r.idx]? = some (.tx 2) ∧ s.pend = none ∧
      s.owned = true := by decide

/-- On a held bus, and after a bus error. -/
theorem witness_LiveMismatchAborts :
    let s : State := running (.writeTxn 1 2 3) 2 (coded .slaWNack (live held))
    let r : Run := runOf (.writeTxn 1 2 3) 2 (live held).cfg
    WaitStep s { s with sched := [] } r ∧ s.ctrlInt = true ∧ r.cmd = .writeTxn 1 2 3 ∧ s.cfg.checkMode = .live ∧
      expected r.cmd r.idx = some .slaWAck ∧ statusRaw s &&& 0xF8 ≠ s.cfg.statusCodes.value .slaWAck ∧ s.owned = true ∧
      s.pend = none ∧
      WaitStep { s with owned := false } { s with owned := false, sched := [] } r ∧
      ({ s with owned := false } : State).owned = false := by decide

theorem witness_WriteTxnRetires :
    let s : State := running (.writeTxn 1 2 3) 4 (coded .dataTxAck (live held))
    let r : Run := runOf (.writeTxn 1 2 3) 4 (live held).cfg
    WaitStep s { s with sched := [] } r ∧ s.ctrlInt = true ∧ r.cmd = .writeTxn 1 2 3 ∧ r.prog = program s.cfg r.cmd ∧
      r.idx = 4 ∧ s.pend = none ∧ s.owned = true ∧ s.cfg.checkMode = .live ∧
      statusRaw s &&& 0xF8 = s.cfg.statusCodes.dataTxAck := by decide

theorem witness_WriteTxnRetires_inert :
    let s : State := running (.writeTxn 1 2 3) 4 held
    let r : Run := runOf (.writeTxn 1 2 3) 4 cfg
    WaitStep s { s with sched := [] } r ∧ s.ctrlInt = true ∧ r.cmd = .writeTxn 1 2 3 ∧ r.prog = program s.cfg r.cmd ∧
      r.idx = 4 ∧ s.pend = none ∧ s.owned = true ∧ s.cfg.checkMode = .inert := by decide

theorem witness_ReadTxnRecordsAndRetires :
    let s : State := running (.readTxn 1 2) 8 held
    let r : Run := runOf (.readTxn 1 2) 8 cfg
    WaitStep s { s with sched := [] } r ∧ s.ctrlInt = true ∧ r.cmd = .readTxn 1 2 ∧ r.prog = program s.cfg r.cmd ∧
      r.idx = 8 ∧ s.pend = none ∧ s.owned = true ∧ s.cfg.checkMode = .inert := by decide

theorem witness_ReadTxnRecordsAndRetires_live :
    let s : State := running (.readTxn 1 2) 8 (coded .dataRxNack (live held))
    let r : Run := runOf (.readTxn 1 2) 8 (live held).cfg
    WaitStep s { s with sched := [] } r ∧ s.ctrlInt = true ∧ r.prog = program s.cfg r.cmd ∧ s.pend = none ∧
      statusRaw s &&& 0xF8 = s.cfg.statusCodes.dataRxNack := by decide

/-- FsmEventActsByTable: every state of the table. -/
theorem witness_FsmEventActsByTable :
    ∀ n ∈ [0#8, 1#8, 2#8, 3#8, 4#8, 5#8, 6#8, 7#8, 8#8], CanEvent (atStep n held) ∧ (atStep n held).pend = none ∧
      (atStep n held).stepCtr = n ∧ (atStep n held).owned = true ∧ (atStep n held).afterStart = false := by decide

/-- STEP = 9, the value of a run, and both other ends of the range. -/
theorem witness_FsmEventDefaultBranch :
    ∀ n ∈ [9#8, 10#8, 255#8], CanEvent (atStep n (busy .stop)) ∧ 8 < (atStep n (busy .stop)).stepCtr.toNat := by decide

/-- A held bus with nothing in flight meets the engine's relations; so does a stop with a start latched behind it. -/
theorem witness_EngineInv : EngineInv held ∧ EngineInv latched := by
  refine ⟨⟨?_, ?_, ?_, ?_, ?_, ?_⟩, ⟨?_, ?_, ?_, ?_, ?_, ?_⟩⟩ <;> decide

/-- PacedEventDoesNotFault: each state on the bus its predecessors leave. -/
theorem witness_PacedEventDoesNotFault :
    (∀ n ∈ [1#8, 2#8, 3#8, 4#8, 5#8, 6#8, 7#8, 8#8, 9#8], (atStep n held).fault = 0 ∧ (atStep n held).seq = .idle ∧
        (atStep n held).ctrlInt = true ∧ (atStep n held).owned = true ∧ (atStep n held).afterStart = false) ∧
      (busy .stop).fault = 0 ∧ (busy .stop).stepCtr = 0 ∧ (busy .stop).pend = some .stop ∧
      (busy .stop).startLatched = false := by decide

theorem witness_PacedEventDoesNotFault_paced : PacedEvent (atStep 7 held) ∧ PacedEvent (busy .stop) := by
  refine ⟨⟨?_, ?_⟩, ⟨?_, ?_⟩⟩ <;> decide

/-- EngineCompletesStart: a first start and a restart. -/
theorem witness_EngineCompletesStart :
    EngineMove (answered .done (busy .start)) (busy .start) .done ∧ (busy .start).pend = some .start ∧
      (busy .start).owned = true ∧ ({ busy .start with owned := false } : State).owned = false := by decide

theorem witness_EngineCompletesTransmit :
    EngineMove (answered (.acked .nack) (busy .tx)) (busy .tx) (.acked .nack) ∧ (busy .tx).pend = some .tx ∧
      (busy .tx).afterStart = false ∧
      EngineMove (answered (.acked .ack) { busy .tx with afterStart := true }) { busy .tx with afterStart := true }
        (.acked .ack) := by decide

theorem witness_EngineCompletesReceive :
    EngineMove (answered (.byte 0xFF) (busy .rxAck)) (busy .rxAck) (.byte 0xFF) ∧ (busy .rxAck).pend = some .rxAck ∧
      EngineMove (answered (.byte 0) (busy .rxNack)) (busy .rxNack) (.byte 0) ∧ (busy .rxNack).pend = some .rxNack := by
  decide

theorem witness_EngineCompletesStop :
    EngineMove (answered .done (busy .stop)) (busy .stop) .done ∧ (busy .stop).pend = some .stop ∧
      EngineMove (answered .done latched) latched .done ∧ latched.pend = some .stop := by decide

theorem witness_EngineCompletesBusError :
    EngineMove (answered .busError (busy .start)) (busy .start) .busError ∧ (busy .start).pend = some .start ∧
      BusOp.start ≠ .stop ∧ (busy .start).cfg.admitBusError = true := by decide

/-- EngineWithoutAdmittedAnswerHolds: one state for each clause. -/
theorem witness_EngineWithoutAdmittedAnswerHolds :
    (EngineMove (answered .done held) held .done ∧ held.pend = none) ∧
      (EngineMove (answered (.byte 0) (busy .start)) (busy .start) (.byte 0) ∧ (busy .start).pend = some .start) ∧
      (EngineMove (answered .done (busy .tx)) (busy .tx) .done ∧ (busy .tx).pend = some .tx) ∧
      (EngineMove (answered .done (busy .rxNack)) (busy .rxNack) .done ∧ (busy .rxNack).pend = some .rxNack) ∧
      (EngineMove (answered .busError (busy .stop)) (busy .stop) .busError ∧ (busy .stop).pend = some .stop) ∧
      (let s : State := { busy .tx with cfg := { cfg with admitBusError := false } }
       EngineMove (answered .busError s) s .busError ∧ s.cfg.admitBusError = false) := by decide

theorem witness_FailureKindByCode : StatusCodes.default.wf = true := by decide

/-- Phase 2 passes with bit 0 of the operand 0 and an acknowledge. -/
theorem witness_RawLiveReadCannotPass :
    StatusCodes.default.wf = true ∧
      check .default (.readTxn 0x50 0x01) 2
        (StatusCodes.default.value (addrCode ((addrByte .raw 0x50 .write).getLsbD 0) .ack)) = true := by decide

theorem witness_TraceLegal : TraceLegal held ∧ TraceLegal fresh := by
  constructor <;> (unfold TraceLegal; decide)

/-- StepKeepsEngineInvariant, StepKeepsTraceLegal: a step of ENGINE from such a state answers a next state. -/
theorem witness_StepKeepsEngineInvariant :
    nextIs (step (answered .done latched)) (fun _ => true) = true ∧
      nextIs (step (offered 0x20000000 held)) (fun t => t.fault == 0) = true := by decide

/-- A transaction waiting on its second phase: in flight, completed, and latched behind a stop. -/
theorem witness_StepKeepsRunningCommand :
    cfg.wf = true ∧ SeqInv (running (.writeTxn 0x50 2 3) 2 (busy .tx)) ∧ SeqInv (running (.writeTxn 0x50 2 3) 2 held) ∧
      SeqInv (running (.writeTxn 0x50 2 3) 1 latched) := by
  refine ⟨by decide, ?_, ?_, ?_⟩ <;> intro r hr <;> cases hr
  · exact ⟨rfl, by decide, rfl, rfl, (fun n hn => nomatch hn),
      .tx 0x50, rfl, by decide, .inr (.inl ⟨rfl, fun b hb => by cases hb; rfl⟩)⟩
  · exact ⟨rfl, by decide, rfl, rfl, (fun n hn => nomatch hn), .tx 0x50, rfl, by decide, .inl rfl⟩
  · exact ⟨rfl, by decide, rfl, rfl, (fun n hn => nomatch hn), .start, rfl, by decide, .inr (.inr ⟨rfl, rfl, rfl⟩)⟩

theorem witness_StepKeepsRunningCommand_step :
    nextIs (step (running (.writeTxn 0x50 2 3) 2 held)) (fun t => t.fault == 0 && t.data == 2) = true := by decide

/-- StepKeepsRegisterRanges: the four invariants hold after reset and in a transaction. -/
theorem witness_StepKeepsRegisterRanges :
    EnableInv fresh ∧ EnableInv held ∧ CodeInv (coded .slaWAck held) ∧ ResultInv { held with result := 0x0010007F } ∧
      CounterInv (atStep 9 (raiseFault .protocolViolation held)) := by
  refine ⟨?_, ?_, ⟨.slaWAck, by decide, rfl⟩, ⟨by decide, by decide⟩, ⟨by decide, by decide⟩⟩
  · intro _; exact ⟨rfl, rfl, rfl, rfl, rfl, rfl⟩
  · intro h; cases h

/-- ConfigFixedTraceGrows, OnlyEngineWritesStatus: a step that writes STATUS and the trace. -/
theorem witness_OnlyEngineWritesStatus :
    nextIs (step (answered .done (busy .start))) (fun t => t.code != (busy .start).code && t.trace != (busy .start).trace) =
      true := by decide

theorem witness_OnlyEventsWriteStep :
    nextIs (step (offered 0xA0000000 fresh)) (fun t => t.stepCtr != fresh.stepCtr) = true := by decide

/-- By the third byte of a READ_TXN, and by the capture latch. -/
theorem witness_OnlyThirdByteWritesLast :
    nextIs (step (running (.readTxn 0 0) 8 { held with data := 0x7F })) (fun t => t.last != held.last) = true ∧
      nextIs (step (answered (.byte 0x9C) { busy .rxNack with cap := true })) (fun t => t.last != held.last) = true := by
  decide

theorem witness_DataStableDuringTransmit :
    (answered (.acked .ack) (busy .tx)).pend = some .tx ∧
      nextIs (step (answered (.acked .ack) (busy .tx))) (fun _ => true) = true := by decide

theorem witness_OnlyTransactionEndWritesResult :
    nextIs (step (running (.readTxn 0 0) 8 held)) (fun t => t.result != held.result) = true := by decide

/-- A context with an empty port, and a wait without bound whose flag is 0. -/
theorem witness_DisabledContextChangesNothing :
    let s : State := { held with sched := [.context .handler] }
    SeqInv s ∧ s.fault = 0 ∧ takeMove s = (.context .handler, held) ∧ contextEnabled .handler s = false := by
  refine ⟨?_, by decide, by decide, by decide⟩
  intro r hr; cases hr

theorem witness_DisabledContextChangesNothing_wait :
    contextEnabled .main (running (.writeTxn 0x50 2 3) 2 (busy .tx)) = false := by decide

/-- WriteTxnBusOrder. -/
theorem witness_WriteTxnBusOrder :
    let s : State := { fresh with
      mainPort := [0x805001AA]
      sched := [.context .main, .engine .done, .context .main, .engine (.acked .nack), .context .main,
        .engine (.acked .nack), .context .main, .engine (.acked .nack), .context .main, .engine .done] }
    CanIssue s ∧ s.pend = none ∧ s.owned = false ∧ s.startLatched = false ∧ s.cfg.checkMode = .inert ∧
      s.mainPort = encode (.writeTxn 0x50 0x01 0xAA) :: [] := by decide

/-- LiveWriteTxnSucceeds; under SHIFTED bit 0 of the address byte is always 0. -/
theorem witness_LiveWriteTxnSucceeds :
    let s : State := { live fresh with
      mainPort := [0x802801AA]
      sched := [.context .main, .engine .done, .context .main, .engine (.acked .ack), .context .main,
        .engine (.acked .ack), .context .main, .engine (.acked .ack), .context .main, .engine .done] }
    CanIssue s ∧ s.pend = none ∧ s.owned = false ∧ s.startLatched = false ∧ s.cfg.wf = true ∧
      s.cfg.checkMode = .live ∧ (addrByte s.cfg.addrMode 0x28 .write).getLsbD 0 = false ∧
      s.mainPort = encode (.writeTxn 0x28 0x01 0xAA) :: [] := by decide

/-- ReadTxnBusOrder, with the answers of P2. -/
theorem witness_ReadTxnBusOrder :
    let s : State := { fresh with
      mainPort := [0x90000000]
      sched := [.context .main, .engine .done, .context .main, .engine (.acked .ack), .context .main,
        .engine (.acked .ack), .context .main, .engine .done, .context .main, .engine (.acked .ack), .context .main,
        .engine (.byte 0x10), .context .main, .engine (.byte 0x20), .context .main, .engine (.byte 0x7F),
        .context .main, .engine .done] }
    CanIssue s ∧ s.pend = none ∧ s.owned = false ∧ s.startLatched = false ∧ s.cap = false ∧
      s.cfg.checkMode = .inert ∧ s.mainPort = encode (.readTxn 0x00 0x00) :: [] := by decide

/-- NineEventsMirrorRead, with the answers of P3. -/
theorem witness_NineEventsMirrorRead :
    let s : State := { fresh with
      handlerPort := List.replicate 9 0xA0000000
      sched := [.context .handler, .engine .done, .context .handler, .engine (.acked .ack), .context .handler,
        .engine (.acked .ack), .context .handler, .engine .done, .context .handler, .engine (.acked .ack),
        .context .handler, .engine (.byte 0x11), .context .handler, .engine (.byte 0x22), .context .handler,
        .engine (.byte 0x33), .context .handler, .engine .done] }
    CanEvent s ∧ s.stepCtr = 0 ∧ s.pend = none ∧ s.owned = false ∧ s.startLatched = false ∧ s.cap = false ∧
      s.handlerPort = List.replicate 9 (encode .fsmEvent) ++ [] := by decide

end Sys2Proof.Tests
end

section
/-! Proofs about the scope (00_scope.md): what every step leaves fixed, and what a context with no enabled step does. -/

namespace Sys2Proof.Machine

open Sys2Proof.Safety

/-- States of one block agree on the parameters, the trace and the operation in flight. -/
theorem bus_of_sameBlock {s u : State} (h : SameBlock s u) : u.cfg = s.cfg ∧ u.trace = s.trace ∧ u.pend = s.pend := by
  rw [h]
  exact ⟨rfl, rfl, rfl⟩

/-- Settles O50, by the cases of a step: a context's effect keeps the parameters and the trace (`effect_keeps`), and
ENGINE's completion keeps the parameters and emits one event (`complete_keeps`). -/
theorem configFixedTraceGrows : Obligations.ConfigFixedTraceGrows := by
  intro s t h
  obtain ⟨-, ⟨c, u, -, hu, heff⟩ | ⟨a, u, hm, hu, heng⟩⟩ := step_cases h
  all_goals obtain ⟨hcfg, htrace, hpend⟩ := bus_of_sameBlock hu
  · obtain ⟨kcfg, -, ktrace, -⟩ := effect_keeps heff
    exact ⟨kcfg.trans hcfg, .inl (ktrace.trans htrace)⟩
  · rcases heng with rfl | ⟨op, hop, -, rfl⟩
    · exact ⟨hcfg, .inl htrace⟩
    · obtain ⟨kcfg, -, -, -, -, -, -, e, ktrace⟩ := complete_keeps op a u
      have hflight : s.pend ≠ none := by simp [← hpend, hop]
      exact ⟨kcfg.trans hcfg, .inr ⟨e, a, by rw [ktrace, htrace], congrArg Prod.fst hm, hflight⟩⟩

/-- Settles O56: taking the move enables no context, and the step of a context that is not enabled is the identity
(`contextStep_of_disabled`). The premise `SeqInv` is not needed. -/
theorem disabledContextChangesNothing : Obligations.DisabledContextChangesNothing := by
  intro s u c _ h0 hm hdis
  obtain rfl : (takeMove s).2 = u := congrArg Prod.snd hm
  rw [step_of_move h0 hm]
  exact contextStep_of_disabled ((takeMove_fault s).trans h0) ((contextEnabled_takeMove c s).trans hdis)

end Sys2Proof.Machine
end

section
/-! Rules for proofs over every step (10_state.md): the induction step of an invariant, ENGINE's completions said once,
what a trigger leaves in ENG, and what an effect of a context does to each part of the state. -/

namespace Sys2Proof.Machine

open Sys2Proof.Safety

theorem isTxn_iff {cmd : BlockCmd} :
    isTxn cmd = true ↔ (∃ d g x, cmd = .writeTxn d g x) ∨ ∃ d g, cmd = .readTxn d g := by
  cases cmd <;> simp [isTxn]

theorem outstanding_iff {c : Ctx} {s : State} : outstanding c s = true ↔ ∃ r, s.seq = .run r ∧ r.owner = c := by
  unfold outstanding
  cases s.seq <;> simp

theorem outstanding_takeMove (c : Ctx) (s : State) : outstanding c (takeMove s).2 = outstanding c s := by
  unfold takeMove
  split <;> rfl

theorem port_takeMove (c : Ctx) (s : State) : port c (takeMove s).2 = port c s := by
  unfold takeMove
  split <;> rfl

theorem registers_of_sameBlock {s u : State} (h : SameBlock s u) :
    u.data = s.data ∧ u.code = s.code ∧ u.stepCtr = s.stepCtr ∧ u.last = s.last ∧ u.result = s.result ∧ u.cap = s.cap ∧
      u.responses = s.responses := by
  rw [h]
  exact ⟨rfl, rfl, rfl, rfl, rfl, rfl, rfl⟩

@[simp] theorem completeTx_pend (k : Ack) (s : State) : (completeTx k s).pend = none := by
  unfold completeTx; split <;> rfl

@[simp] theorem completeTx_ctrlInt (k : Ack) (s : State) : (completeTx k s).ctrlInt = true := by
  unfold completeTx; split <;> rfl

@[simp] theorem completeTx_afterStart (k : Ack) (s : State) : (completeTx k s).afterStart = false := by
  unfold completeTx
  split
  · rfl
  · next h => simpa using h

@[simp] theorem completeRx_cap (a : Ack) (v : Byte) (s : State) : (completeRx a v s).cap = false := by
  rw [completeRx, finishOp_cap, capture_eq]

/-- The completions of ENGINE, each with the operation in flight it ends (R104 to R109). -/
inductive Completion (s : State) : State → Prop
  | start (hp : s.pend = some .start) : Completion s (completeStart s)
  | tx (k : Ack) (hp : s.pend = some .tx) : Completion s (completeTx k s)
  | rx (a : Ack) (v : Byte) (hp : s.pend = some .rxAck ∨ s.pend = some .rxNack) : Completion s (completeRx a v s)
  | stop (hp : s.pend = some .stop) : Completion s (completeStop s)
  | busError (hp : s.pend ≠ none) (hns : s.pend ≠ some .stop) : Completion s (completeBusError s)

/-- An admitted answer completes the operation in flight in the way R104 to R109 give it. -/
theorem complete_completion {op : BusOp} {a : Answer} {s : State} (hp : s.pend = some op)
    (ha : admits s.cfg op a = true) : Completion s (complete op a s) := by
  cases a with
  | done =>
    cases op with
    | start => exact .start hp
    | stop => exact .stop hp
    | tx | rxAck | rxNack => cases ha
  | acked k =>
    cases op with
    | tx => exact .tx k hp
    | start | rxAck | rxNack | stop => cases ha
  | byte v =>
    cases op with
    | rxAck => exact .rx _ v (.inl hp)
    | rxNack => exact .rx _ v (.inr hp)
    | start | tx | stop => cases ha
  | busError =>
    refine .busError (by simp [hp]) fun hstop => ?_
    obtain rfl : op = .stop := Option.some.inj (hp.symm.trans hstop)
    cases ha

/-- A step is the step of the agent the next move names. -/
theorem agentStep_of_step {s t : State} (h : step s = .next t) :
    agentStep (takeMove s).1 (takeMove s).2 = .next t :=
  (step_of_move (m := (takeMove s).1) (u := (takeMove s).2) (step_cases h).1 rfl).symm.trans h

/-- A predicate on the block that every effect of a context and every completion by ENGINE keeps is kept by every step. -/
theorem step_keeps {P : State → Prop} (hblock : ∀ {s u}, SameBlock s u → P s → P u)
    (heffect : ∀ {s t}, Effect s t → P s → P t)
    (hcomplete : ∀ {s op a}, s.pend = some op → admits s.cfg op a = true → P s → P (complete op a s))
    {s t : State} (h : step s = .next t) (hs : P s) : P t := by
  obtain ⟨-, ⟨c, u, -, hu, heff⟩ | ⟨a, u, -, hu, rfl | ⟨op, hop, hadm, rfl⟩⟩⟩ := step_cases h
  · exact heffect heff (hblock hu hs)
  · exact hblock hu hs
  · exact hcomplete hop hadm (hblock hu hs)

/-- What a legal trigger leaves in flight (R92): its operation, where nothing was, or, for a start during a stop, the stop
with the start latched. -/
theorem launch_pend_cases {op : BusOp} {s : State} (hc : checkTrigger op s = none) :
    (s.pend = none ∧ (launch op s).pend = some op ∧ (launch op s).startLatched = s.startLatched ∧
        (op = .start ∨ s.owned = true) ∧ (op = .rxAck ∨ op = .rxNack → s.afterStart = false)) ∨
      (op = .start ∧ s.pend = some .stop ∧ (launch op s).pend = some .stop ∧ (launch op s).startLatched = true) := by
  obtain ⟨hp, hown, hrx⟩ | ⟨rfl, hp, -⟩ := checkTrigger_none_iff.1 hc
  · exact .inl ⟨hp, by simp [latches, hp], by simp [latches, hp], hown, hrx⟩
  · exact .inr ⟨rfl, hp, by simp [latches, hp], by simp [latches, hp]⟩

/-- Every control image sets EN (R77). -/
theorem launch_enables (op : BusOp) (s : State) : (launch op s).ctrlEn = true := by
  cases op <;> rfl

/-- CTRL, ENG and FSM.CAP agree. -/
structure SameEngine (s t : State) : Prop where
  ctrlInt : t.ctrlInt = s.ctrlInt
  ctrlEa : t.ctrlEa = s.ctrlEa
  ctrlSta : t.ctrlSta = s.ctrlSta
  ctrlEn : t.ctrlEn = s.ctrlEn
  pend : t.pend = s.pend
  owned : t.owned = s.owned
  afterStart : t.afterStart = s.afterStart
  startLatched : t.startLatched = s.startLatched
  cap : t.cap = s.cap

theorem sameEngine_of_sameBlock {s u : State} (h : SameBlock s u) : SameEngine s u := by
  rw [h]
  constructor <;> rfl

/-- What a context's effect does to CTRL, ENG and FSM.CAP: nothing, or one legal trigger, which arms the capture latch only
if it is the receive of state 7 (R92, R160). -/
theorem effect_engine {s t : State} (e : Effect s t) :
    SameEngine s t ∨
      ∃ op n, checkTrigger op s = none ∧ (n = 7 → op = .rxNack) ∧ SameEngine (armed n (launch op s)) t := by
  cases e with
  | idle | fault | reply | eventReset | retirePrimitive | pastProgram | abortQuiet | poll =>
    exact .inl (by constructor <;> rfl)
  | timeOut r => exact .inl (by constructor <;> simp)
  | stop _ _ hc | abortStop _ _ _ _ _ _ _ hc => exact .inr ⟨.stop, 0, hc, nofun, by constructor <;> rfl⟩
  | retireTxn _ _ _ _ _ _ _ hc => exact .inr ⟨.stop, 0, hc, nofun, by constructor <;> simp [armed] <;> rfl⟩
  | begin _ ph _ _ _ _ hc | nextPhase _ ph _ _ _ _ _ _ _ hc =>
    exact .inr ⟨phaseOp ph, 0, hc, nofun, by constructor <;> rfl⟩
  | event ph _ _ hph hc =>
    refine .inr ⟨phaseOp ph, s.stepCtr.toNat, hc, fun h7 => ?_, by constructor <;> rfl⟩
    rw [h7] at hph
    cases hph
    rfl

/-- The bits of RESULT's fields from KIND up: KIND at 22:20, and 0 above (R35). -/
theorem resultWord_getLsbD (kind : ResultKind) (phase : Nat) (code byte : Byte) (i : Nat) :
    (resultWord kind phase code byte).getLsbD (20 + i) = (kindBits kind).getLsbD i := by
  change BitVec.getLsbD (w := 9 + 3 + 4 + 8 + 8) (0#9 ++ kindBits kind ++ BitVec.ofNat 4 phase ++ code ++ byte)
    (20 + i) = _
  have h8 : ¬ 20 + i < 8 := by omega
  have h16 : ¬ 20 + i - 8 < 8 := by omega
  have h20 : ¬ 20 + i - 8 - 8 < 4 := by omega
  have hi : 20 + i - 8 - 8 - 4 = i := by omega
  simp only [BitVec.getLsbD_append, h8, h16, h20, hi, if_false]
  simpa using BitVec.lt_of_getLsbD

theorem resultWord_kind (kind : ResultKind) (phase : Nat) (code byte : Byte) :
    (resultWord kind phase code byte).extractLsb' 20 3 = kindBits kind := by
  ext i hi
  simp [resultWord_getLsbD, BitVec.getLsbD_eq_getElem hi]

theorem resultWord_high (kind : ResultKind) (phase : Nat) (code byte : Byte) :
    (resultWord kind phase code byte).extractLsb' 23 9 = 0#9 := by
  ext i hi
  have h := resultWord_getLsbD kind phase code byte (3 + i)
  simpa [← Nat.add_assoc] using h

theorem kindBits_le (kind : ResultKind) : (kindBits kind).toNat ≤ 4 := by cases kind <;> decide

theorem resultWord_layout (kind : ResultKind) (phase : Nat) (code byte : Byte) :
    (resultWord kind phase code byte).extractLsb' 23 9 = 0#9 ∧
      ((resultWord kind phase code byte).extractLsb' 20 3).toNat ≤ 4 :=
  ⟨resultWord_high .., resultWord_kind kind phase code byte ▸ kindBits_le kind⟩

/-- From `s` to `t` the transaction `r` ends with the word `v`: SEQ is idle, and RESULT and its owner's response are `v`. -/
def EndsWith (r : Run) (v : Word) (s t : State) : Prop :=
  t.seq = .idle ∧ t.result = v ∧ t.responses = s.responses ++ [(r.owner, .result v)]

/-- Retiring at the final stop ends a transaction with a word of RESULT's layout (R135, R136). -/
theorem retireAtStop_endsWith {r : Run} (hcmd : isTxn r.cmd = true) (s : State) :
    ∃ kind phase code byte, EndsWith r (resultWord kind phase code byte) s (retireAtStop r s) := by
  unfold retireAtStop
  split
  · split <;> exact ⟨_, _, _, _, rfl, rfl, rfl⟩
  · exact ⟨_, _, _, _, rfl, rfl, rfl⟩
  all_goals next h => simp [isTxn, h] at hcmd

/-- The end of a bounded wait ends a transaction with a word of RESULT's layout, and leaves RESULT to a primitive (R134). -/
theorem timeOut_result (r : Run) (s : State) :
    (timeOut r s).result = s.result ∨
      isTxn r.cmd = true ∧ EndsWith r (resultWord .timeout r.idx 0 0) s (timeOut r s) := by
  unfold timeOut
  split
  case h_1 h | h_2 h => exact .inr ⟨by simp [isTxn, h], rfl, rfl, rfl⟩
  all_goals exact .inl rfl

/-- An effect writes RESULT only where it ends a transaction, with a word of RESULT's layout (R35, R133 to R136). -/
theorem effect_result {s t : State} (e : Effect s t) :
    t.result = s.result ∨
      ∃ r kind phase code byte, s.seq = .run r ∧ isTxn r.cmd = true ∧
        EndsWith r (resultWord kind phase code byte) s t := by
  cases e with
  | idle | fault | reply | stop | begin | event | eventReset | retirePrimitive | nextPhase | pastProgram | poll =>
    exact .inl rfl
  | abortStop r hrun _ _ hcmd | abortQuiet r hrun _ _ hcmd =>
    exact .inr ⟨r, _, _, _, _, hrun, hcmd, rfl, rfl, rfl⟩
  | retireTxn r hrun _ _ hcmd =>
    obtain ⟨kind, phase, code, byte, hend⟩ :=
      retireAtStop_endsWith (r := nextPhase r s) hcmd (launch .stop (recordLast r s))
    exact .inr ⟨r, kind, phase, code, byte, hrun, hcmd, hend⟩
  | timeOut r n hrun =>
    exact (timeOut_result r s).imp_right fun ⟨hcmd, hend⟩ => ⟨r, _, _, _, _, hrun, hcmd, hend⟩

/-- The third byte is recorded by phase 8 of a READ_TXN alone (R137). -/
theorem recordsByte_iff {r : Run} : recordsByte r = true ↔ (∃ d g, r.cmd = .readTxn d g) ∧ r.idx = 8 := by
  unfold recordsByte
  split <;> simp_all

theorem recordLast_last_cases (r : Run) (s : State) :
    (recordLast r s).last = s.last ∨ recordsByte r = true ∧ (recordLast r s).last = s.data := by
  cases h : recordsByte r <;> simp [h]

/-- An effect writes LAST only where it records the third byte of a READ_TXN (R137). -/
theorem effect_last {s t : State} (e : Effect s t) :
    t.last = s.last ∨ ∃ r, s.seq = .run r ∧ s.ctrlInt = true ∧ recordsByte r = true ∧ t.last = s.data := by
  cases e with
  | idle | fault | reply | stop | begin | event | eventReset | retirePrimitive | abortStop | abortQuiet | poll =>
    exact .inl rfl
  | timeOut r => exact .inl (timeOut_last r s)
  | nextPhase r _ hrun _ hint | pastProgram r hrun _ hint =>
    exact (recordLast_last_cases r s).imp_right fun ⟨hrec, hlast⟩ => ⟨r, hrun, hint, hrec, hlast⟩
  | retireTxn r hrun _ hint =>
    rw [retireAtStop_last, launch_last]
    exact (recordLast_last_cases r s).imp_right fun ⟨hrec, hlast⟩ => ⟨r, hrun, hint, hrec, hlast⟩

/-- ENGINE writes LAST only by the capture latch, with the byte received (R107). -/
theorem complete_last (op : BusOp) (a : Answer) (s : State) :
    (complete op a s).last = s.last ∨ ∃ v, s.cap = true ∧ a = .byte v ∧ (complete op a s).last = v := by
  cases a with
  | done => exact .inl (by simp only [complete]; split <;> rfl)
  | acked k => exact .inl (completeTx_last k s)
  | busError => exact .inl rfl
  | byte v =>
    cases hcap : s.cap <;> simp [complete, completeRx, capture, hcap]

/-- An effect leaves FAULT as it is or raises a fault (R187). -/
theorem effect_fault {s t : State} (e : Effect s t) : t.fault = s.fault ∨ ∃ k, t.fault = faultCode k := by
  cases e with
  | fault k => exact .inr ⟨k, rfl⟩
  | timeOut r => exact .inl (timeOut_fault r s)
  | retireTxn r => exact .inl (retireAtStop_fault (nextPhase r s) _)
  | _ => exact .inl rfl

/-- An effect writes STEP only with no command running: it goes up by 1 from at most 8, or to 0 (R151, R162). -/
theorem effect_stepCtr {s t : State} (e : Effect s t) :
    t.stepCtr = s.stepCtr ∨
      s.seq = .idle ∧ (s.stepCtr.toNat ≤ 8 ∧ t.stepCtr = s.stepCtr + 1 ∨ t.stepCtr = 0) := by
  cases e with
  | event _ hseq hle => exact .inr ⟨hseq, .inl ⟨hle, rfl⟩⟩
  | eventReset hseq => exact .inr ⟨hseq, .inr rfl⟩
  | timeOut r => exact .inl (timeOut_stepCtr r s)
  | retireTxn r => exact .inl (retireAtStop_stepCtr (nextPhase r s) _)
  | _ => exact .inl rfl

end Sys2Proof.Machine
end

section
/-! EngineInv and TraceLegal, kept by every step. -/

namespace Sys2Proof.Machine

open Sys2Proof.Safety

theorem engineInv_of_sameEngine {s t : State} (h : SameEngine s t) (hs : EngineInv s) : EngineInv t where
  intClear := by rw [h.pend, h.ctrlInt]; exact hs.intClear
  latched := by rw [h.startLatched, h.pend]; exact hs.latched
  startedOwned := by rw [h.afterStart, h.owned]; exact hs.startedOwned
  heldByOp := by rw [h.pend, h.owned]; exact hs.heldByOp
  rxAddressed := by rw [h.pend, h.afterStart]; exact hs.rxAddressed
  capArmed := by rw [h.cap, h.pend]; exact hs.capArmed

/-- A legal trigger keeps EngineInv: it starts its operation on a bus its check found fit, or latches a start behind the
stop in flight. -/
theorem engineInv_launch {op : BusOp} {s : State} (hc : checkTrigger op s = none) (hs : EngineInv s) :
    EngineInv (launch op s) := by
  have hidle : s.pend = none → s.startLatched = false ∧ s.cap = false := fun hp =>
    ⟨by simpa [hp] using hs.latched, by simpa [hp] using hs.capArmed⟩
  obtain ⟨hnone, hp, hl, hown, hrx⟩ | ⟨rfl, hstop, hp, hl⟩ := launch_pend_cases hc
  · obtain ⟨hlatched, hcap⟩ := hidle hnone
    exact
      { intClear := fun _ => rfl
        latched := by rw [hl, hlatched]; nofun
        startedOwned := hs.startedOwned
        heldByOp := fun op' hop hne => by
          obtain rfl : op = op' := Option.some.inj (hp.symm.trans hop)
          exact hown.resolve_left hne
        rxAddressed := by rw [hp]; simpa using hrx
        capArmed := by simp [hcap] }
  · exact
      { intClear := fun _ => rfl
        latched := fun _ => hp
        startedOwned := hs.startedOwned
        heldByOp := fun _ _ _ => hs.heldByOp .stop hstop nofun
        rxAddressed := by rw [hp]; simp
        capArmed := by rw [hp, ← hstop]; exact hs.capArmed }

theorem engineInv_armed {n : Nat} {s : State} (hn : n = 7 → s.pend = some .rxNack) (hs : EngineInv s) :
    EngineInv (armed n s) where
  intClear := hs.intClear
  latched := hs.latched
  startedOwned := hs.startedOwned
  heldByOp := hs.heldByOp
  rxAddressed := hs.rxAddressed
  capArmed := by
    by_cases h7 : n = 7
    · exact fun _ => hn h7
    · simpa [armed, h7] using hs.capArmed

theorem effect_engineInv {s t : State} (e : Effect s t) (hs : EngineInv s) : EngineInv t := by
  obtain hsame | ⟨op, n, hc, hn, hsame⟩ := effect_engine e
  · exact engineInv_of_sameEngine hsame hs
  · refine engineInv_of_sameEngine hsame (engineInv_armed (fun h7 => ?_) (engineInv_launch hc hs))
    obtain rfl := hn h7
    simp [latches]

/-- With nothing in flight, no start latched and no capture armed, EngineInv says only that a bus just started is held. -/
theorem engineInv_of_pend_none {t : State} (hp : t.pend = none) (hl : t.startLatched = false) (hc : t.cap = false)
    (ho : t.afterStart = true → t.owned = true) : EngineInv t where
  intClear := by simp [hp]
  latched := by simp [hl]
  startedOwned := ho
  heldByOp := by simp [hp]
  rxAddressed := by simp [hp]
  capArmed := by simp [hc]

/-- A completion keeps EngineInv: one that leaves nothing in flight finds no start latched and leaves no capture armed, and
the end of a stop begins at most the latched start. -/
theorem completion_engineInv {s t : State} (e : Completion s t) (hs : EngineInv s) : EngineInv t := by
  have hlatched : s.pend ≠ some .stop → s.startLatched = false := fun hns => by simpa using mt hs.latched hns
  have hcap : s.pend ≠ some .rxNack → s.cap = false := fun hnr => by simpa using mt hs.capArmed hnr
  cases e with
  | start hp => exact engineInv_of_pend_none rfl (hlatched (by simp [hp])) (hcap (by simp [hp])) fun _ => rfl
  | tx k hp =>
    refine engineInv_of_pend_none (completeTx_pend k s) ?_ ?_ ?_
    · rw [completeTx_startLatched, hlatched (by simp [hp])]
    · rw [completeTx_cap, hcap (by simp [hp])]
    · simp
  | rx a v hp =>
    refine engineInv_of_pend_none rfl ?_ (completeRx_cap a v s) ?_
    · rw [completeRx_startLatched, hlatched (by rcases hp with hp | hp <;> simp [hp])]
    · simpa using hs.startedOwned
  | stop hp =>
    exact
      { intClear := fun _ => hs.intClear (by simp [hp])
        latched := nofun
        startedOwned := nofun
        heldByOp := fun op => by cases hl : s.startLatched <;> simp +contextual [completeStop, hl, eq_comm]
        rxAddressed := fun _ => rfl
        capArmed := fun h => absurd (hs.capArmed h) (by simp [hp]) }
  | busError hp hns => exact engineInv_of_pend_none rfl (hlatched hns) rfl nofun

theorem busAfter_concat (l : List BusEvent) (e : BusEvent) :
    busAfter (l ++ [e]) = (busAfter l).bind fun p => busStep p e := by
  simp [busAfter, List.foldlM_append]

/-- A completion emits one event, which is legal where ENG says the bus stands and leaves it where ENG says then. -/
theorem completion_busStep {s t : State} (e : Completion s t) (hs : EngineInv s) :
    ∃ ev, t.trace = s.trace ++ [ev] ∧ busStep (enginePhase s) ev = some (enginePhase t) := by
  cases e with
  | start hp =>
    refine ⟨_, rfl, ?_⟩
    cases ho : s.owned <;> cases ha : s.afterStart <;> simp [enginePhase, completeStart, ho, ha, busStep]
  | tx k hp =>
    have ho : s.owned = true := hs.heldByOp .tx hp nofun
    cases ha : s.afterStart
    · exact ⟨.tx s.data k, by simp [completeTx, ha], by simp [enginePhase, completeTx, ho, ha, busStep]⟩
    · exact ⟨.addr s.data k, by simp [completeTx, ha], by simp [enginePhase, completeTx, ho, ha, busStep]⟩
  | rx a v hp =>
    have ha : s.afterStart = false := hs.rxAddressed hp
    have ho : s.owned = true := hp.elim (hs.heldByOp _ · nofun) (hs.heldByOp _ · nofun)
    exact ⟨.rx v a, by simp [completeRx], by simp [enginePhase, ho, ha, busStep]⟩
  | stop hp =>
    have ho : s.owned = true := hs.heldByOp .stop hp nofun
    refine ⟨_, rfl, ?_⟩
    cases ha : s.afterStart <;> simp [enginePhase, completeStop, ho, ha, busStep]
  | busError =>
    refine ⟨_, rfl, ?_⟩
    cases enginePhase s <;> rfl

theorem traceLegal_congr {s t : State} (htrace : t.trace = s.trace) (howned : t.owned = s.owned)
    (hafter : t.afterStart = s.afterStart) (hs : TraceLegal s) : TraceLegal t := by
  unfold TraceLegal enginePhase
  rw [htrace, howned, hafter]
  exact hs

theorem effect_traceLegal {s t : State} (e : Effect s t) (hs : TraceLegal s) : TraceLegal t := by
  obtain ⟨-, -, htrace, howned, hafter⟩ := effect_keeps e
  exact traceLegal_congr htrace howned hafter hs

theorem completion_traceLegal {s t : State} (e : Completion s t) (hinv : EngineInv s) (hs : TraceLegal s) :
    TraceLegal t := by
  obtain ⟨ev, htrace, hstep⟩ := completion_busStep e hinv
  unfold TraceLegal at hs ⊢
  rw [htrace, busAfter_concat, hs]
  exact hstep

/-- Settles O46, by the effects of a context (`effect_engineInv`) and the completions by ENGINE
(`completion_engineInv`). -/
theorem stepKeepsEngineInvariant : Obligations.StepKeepsEngineInvariant := fun _ _ hs h =>
  step_keeps (fun hb => engineInv_of_sameEngine (sameEngine_of_sameBlock hb)) effect_engineInv
    (fun hp ha => completion_engineInv (complete_completion hp ha)) h hs

/-- Settles O47, with EngineInv carried along: a context's effect leaves the trace and the bus as they are, and a
completion goes on with an event that is legal where EngineInv says the bus stands (`completion_busStep`). -/
theorem stepKeepsTraceLegal : Obligations.StepKeepsTraceLegal := by
  intro s t hinv hs h
  refine (step_keeps (P := fun s => EngineInv s ∧ TraceLegal s) ?_ ?_ ?_ h ⟨hinv, hs⟩).2
  · intro s u hb ⟨hinv, hs⟩
    have hsame := sameEngine_of_sameBlock hb
    exact ⟨engineInv_of_sameEngine hsame hinv,
      traceLegal_congr (bus_of_sameBlock hb).2.1 hsame.owned hsame.afterStart hs⟩
  · exact fun e ⟨hinv, hs⟩ => ⟨effect_engineInv e hinv, effect_traceLegal e hs⟩
  · intro s op a hp ha ⟨hinv, hs⟩
    have e := complete_completion hp ha
    exact ⟨completion_engineInv e hinv, completion_traceLegal e hinv hs⟩

end Sys2Proof.Machine
end

section
/-! SeqInv, kept by every step. -/

namespace Sys2Proof.Machine

open Sys2Proof.Safety

/-- The operation of the phase `ph` is in flight with the phase's byte in DATA, or is a start latched behind a stop. -/
def PhaseInFlight (ph : Phase) (s : State) : Prop :=
  (s.pend = some (phaseOp ph) ∧ ∀ b, ph = .tx b → s.data = b) ∨
    (ph = .start ∧ s.pend = some .stop ∧ s.startLatched = true)

theorem phaseInFlight_launch {ph : Phase} {s : State} (hc : checkTrigger (phaseOp ph) s = none) :
    PhaseInFlight ph (launch (phaseOp ph) (loadPhase ph s)) := by
  rw [← checkTrigger_loadPhase _ ph] at hc
  obtain ⟨-, hp, -⟩ | ⟨hop, -, hp, hl⟩ := launch_pend_cases hc
  · exact .inl ⟨hp, fun b hb => by simp [hb]⟩
  · exact .inr ⟨by cases ph <;> simp_all [phaseOp], hp, hl⟩

/-- The wait on a phase of the command's own program, just triggered, meets RunInv (R95, R130). -/
theorem runInv_await {r : Run} {ph : Phase} {s : State} (hwf : s.cfg.wf = true) (hprog : r.prog = program s.cfg r.cmd)
    (hidx : 1 ≤ r.idx) (hout : eventInside s = false) (hph : r.prog[r.idx - 1]? = some ph) (hns : ph ≠ .stop)
    (hc : checkTrigger (phaseOp ph) s = none) :
    RunInv (await r (launch (phaseOp ph) (loadPhase ph s))) { r with waiting := true, polls := 0 } where
  prog := hprog
  idx := hidx
  waiting := rfl
  outside := hout
  polls := fun n (hn : s.cfg.waitBound = some n) => by
    simp only [Config.wf, hn, Bool.and_eq_true, decide_eq_true_eq] at hwf
    exact hwf.1
  phase := ⟨ph, hph, hns, .inr (phaseInFlight_launch hc)⟩

/-- RunInv reads the parameters, STEP, and where the phase it waits on stands. -/
theorem runInv_of_keeps {s t : State} {r : Run} (hcfg : t.cfg = s.cfg) (hstep : t.stepCtr = s.stepCtr)
    (hphase : ∀ ph, ph ≠ .stop → s.ctrlInt = true ∨ PhaseInFlight ph s → t.ctrlInt = true ∨ PhaseInFlight ph t)
    (hs : RunInv s r) : RunInv t r where
  prog := by rw [hcfg]; exact hs.prog
  idx := hs.idx
  waiting := hs.waiting
  outside := by rw [eventInside, hstep]; exact hs.outside
  polls := by rw [hcfg]; exact hs.polls
  phase :=
    let ⟨ph, hph, hns, hstands⟩ := hs.phase
    ⟨ph, hph, hns, hphase ph hns hstands⟩

theorem seqInv_of_keeps {s t : State} (hseq : t.seq = s.seq) (hcfg : t.cfg = s.cfg) (hstep : t.stepCtr = s.stepCtr)
    (hphase : ∀ ph, ph ≠ .stop → s.ctrlInt = true ∨ PhaseInFlight ph s → t.ctrlInt = true ∨ PhaseInFlight ph t)
    (hs : SeqInv s) : SeqInv t := fun r hr => runInv_of_keeps hcfg hstep hphase (hs r (hseq.symm.trans hr))

theorem seqInv_of_idle {t : State} (h : t.seq = .idle) : SeqInv t := fun r hr => by simp [h] at hr

theorem seqInv_of_run {t : State} {r : Run} (h : t.seq = .run r) (hr : RunInv t r) : SeqInv t := fun r' hr' => by
  obtain rfl : r = r' := Seq.run.inj (h.symm.trans hr')
  exact hr

/-- An effect keeps SeqInv: it leaves no command running, or awaits a phase it has just triggered, or counts a poll below
the bound, or changes nothing the running command waits on. -/
theorem effect_seqInv {s t : State} (hwf : s.cfg.wf = true) (e : Effect s t) (hs : SeqInv s) : SeqInv t := by
  cases e with
  | idle | fault | reply | pastProgram => exact seqInv_of_keeps (s := s) rfl rfl rfl (fun _ _ h => h) hs
  | stop hseq | event _ hseq | eventReset hseq => exact seqInv_of_idle hseq
  | retirePrimitive | abortStop | abortQuiet => exact seqInv_of_idle rfl
  | retireTxn r => exact seqInv_of_idle (retireAtStop_seq (nextPhase r s) _)
  | timeOut r => exact seqInv_of_idle (timeOut_seq r s)
  | begin cmd ph _ hout hph hns hc => exact seqInv_of_run rfl (runInv_await hwf rfl le_rfl hout hph hns hc)
  | nextPhase r ph hrun _ _ _ _ hph hns hc =>
    have hr := hs r hrun
    exact seqInv_of_run rfl
      (runInv_await (s := recordLast r s) hwf hr.prog (Nat.le_add_left 1 r.idx) hr.outside hph hns hc)
  | poll r n hrun _ _ hb hn =>
    have hr := hs r hrun
    refine seqInv_of_run rfl ⟨hr.prog, hr.idx, hr.waiting, hr.outside, fun m hm => ?_, hr.phase⟩
    obtain rfl : n = m := Option.some.inj (hb.symm.trans hm)
    exact lt_of_le_of_ne (hr.polls n hb) hn

/-- A completion ends the wait on a phase in flight with INT = 1, and begins the start latched behind a stop. -/
theorem completion_phase {s t : State} {ph : Phase} (e : Completion s t) (hns : ph ≠ .stop)
    (h : s.ctrlInt = true ∨ PhaseInFlight ph s) : t.ctrlInt = true ∨ PhaseInFlight ph t := by
  cases e with
  | start | rx | busError => exact .inl rfl
  | tx k => exact .inl (completeTx_ctrlInt k s)
  | stop hp =>
    refine h.imp_right ?_
    rintro (⟨hop, -⟩ | ⟨rfl, -, hl⟩)
    · exact absurd (hp.symm.trans hop) (by cases ph <;> simp_all [phaseOp])
    · exact .inl ⟨by simp [completeStop, hl, phaseOp], nofun⟩

/-- Settles O48, over the effects of a context (`effect_seqInv`) and the completions by ENGINE (`completion_phase`); that
the bound of a wait is at least 1 (R8) is carried along. -/
theorem stepKeepsRunningCommand : Obligations.StepKeepsRunningCommand := by
  intro s t hwf hs h
  refine (step_keeps (P := fun s => s.cfg.wf = true ∧ SeqInv s) ?_ ?_ ?_ h ⟨hwf, hs⟩).2
  · intro s u hb hs
    rw [hb]
    exact ⟨hs.1, seqInv_of_keeps (s := s) rfl rfl rfl (fun _ _ h => h) hs.2⟩
  · intro s t e ⟨hwf, hs⟩
    exact ⟨(effect_keeps e).1 ▸ hwf, effect_seqInv hwf e hs⟩
  · intro s op a hp ha ⟨hwf, hs⟩
    obtain ⟨hcfg, hstep, -, -, -, hseq, -⟩ := complete_keeps op a s
    exact ⟨hcfg ▸ hwf, seqInv_of_keeps hseq hcfg hstep (fun _ => completion_phase (complete_completion hp ha)) hs⟩

end Sys2Proof.Machine
end

section
/-! The ranges of the registers: EnableInv, CodeInv, ResultInv and CounterInv, each kept by every step. -/

namespace Sys2Proof.Machine

open Sys2Proof.Safety

theorem enableInv_of_same {s t : State} (h : SameEngine s t) (htrace : t.trace = s.trace) (hs : EnableInv s) :
    EnableInv t := by
  unfold EnableInv
  rw [h.ctrlEn, h.ctrlInt, h.ctrlEa, h.ctrlSta, h.pend, h.owned, htrace]
  exact hs

/-- EN is 0 only before the first trigger (R25): a trigger sets it, and a completion needs an operation in flight. -/
theorem step_enableInv {s t : State} (h : step s = .next t) (hs : EnableInv s) : EnableInv t := by
  refine step_keeps ?_ ?_ ?_ h hs
  · exact fun hb => enableInv_of_same (sameEngine_of_sameBlock hb) (bus_of_sameBlock hb).2.1
  · intro s t e hs
    obtain hsame | ⟨op, n, -, -, hsame⟩ := effect_engine e
    · exact enableInv_of_same hsame (effect_keeps e).2.2.1 hs
    · have hen : t.ctrlEn = true := hsame.ctrlEn.trans (launch_enables op s)
      exact fun h0 => by simp [hen] at h0
  · intro s op a hp _ hs h0
    obtain ⟨-, -, -, -, hen, -⟩ := complete_keeps op a s
    obtain ⟨-, -, -, hnone, -⟩ := hs (hen.symm.trans h0)
    simp [hp] at hnone

/-- A completion writes the code of a name other than ARB_LOST (R174 to R179). -/
theorem completion_code {s t : State} (e : Completion s t) :
    ∃ n, n ≠ StatusName.arbLost ∧ t.code = codeBits s.cfg n := by
  cases e with
  | start => exact ⟨startCode s.owned, by cases s.owned <;> simp [startCode], rfl⟩
  | tx k =>
    cases ha : s.afterStart
    · exact ⟨txCode k, by cases k <;> simp [txCode], by simp [completeTx, ha]⟩
    · exact ⟨addrCode (s.data.getLsbD 0) k, by cases s.data.getLsbD 0 <;> cases k <;> simp [addrCode],
        by simp [completeTx, ha]⟩
  | rx a v => exact ⟨rxCode a, by cases a <;> simp [rxCode], by simp [completeRx]⟩
  | stop => exact ⟨.noInfo, nofun, rfl⟩
  | busError => exact ⟨.busError, nofun, rfl⟩

theorem codeInv_of_same {s t : State} (hcfg : t.cfg = s.cfg) (hcode : t.code = s.code) (hs : CodeInv s) :
    CodeInv t := by
  rw [CodeInv, hcfg, hcode]
  exact hs

theorem step_codeInv {s t : State} (h : step s = .next t) (hs : CodeInv s) : CodeInv t := by
  refine step_keeps ?_ ?_ ?_ h hs
  · intro s u hb
    rw [hb]
    exact codeInv_of_same rfl rfl
  · intro s t e
    obtain ⟨hcfg, hcode, -⟩ := effect_keeps e
    exact codeInv_of_same hcfg hcode
  · intro s op a hp ha _
    rw [CodeInv, complete_cfg]
    exact completion_code (complete_completion hp ha)

theorem step_resultInv {s t : State} (h : step s = .next t) (hs : ResultInv s) : ResultInv t := by
  refine step_keeps ?_ ?_ ?_ h hs
  · intro s u hb hs
    rw [hb]
    exact hs
  · intro s t e hs
    obtain hsame | ⟨r, kind, phase, code, byte, -, -, -, hres, -⟩ := effect_result e
    · rw [ResultInv, hsame]; exact hs
    · rw [ResultInv, hres]; exact resultWord_layout kind phase code byte
  · intro s op a _ _ hs
    rw [ResultInv, complete_result]
    exact hs

theorem step_counterInv {s t : State} (h : step s = .next t) (hs : CounterInv s) : CounterInv t := by
  refine step_keeps ?_ ?_ ?_ h hs
  · intro s u hb hs
    rw [hb]
    exact hs
  · intro s t e ⟨hstep, hfault⟩
    constructor
    · obtain hc | ⟨-, ⟨hle, hc⟩ | hc⟩ := effect_stepCtr e <;> rw [hc]
      · exact hstep
      · bv_omega
      · decide
    · obtain hf | ⟨k, hf⟩ := effect_fault e <;> rw [hf]
      · exact hfault
      · exact (faultCode_range k).2
  · intro s op a _ _ hs
    rw [CounterInv, complete_stepCtr, complete_fault]
    exact hs

/-- Settles O49: each of the four invariants is kept on its own. -/
theorem stepKeepsRegisterRanges : Obligations.StepKeepsRegisterRanges := fun _ _ h =>
  ⟨step_enableInv h, step_codeInv h, step_resultInv h, step_counterInv h⟩

end Sys2Proof.Machine
end

section
/-! Who writes a register of the state (R22, R29, R31, R34, R35). -/

namespace Sys2Proof.Machine

open Sys2Proof.Safety

theorem issuePhase_stepCtr {r : Run} {s t : State} (h : issuePhase r s = .ok t) : t.stepCtr = s.stepCtr := by
  obtain ⟨-, rfl⟩ | ⟨ph, -, -, ⟨-, rfl⟩ | ⟨-, rfl⟩⟩ := issuePhase_ok h
  · rfl
  · rfl
  · exact retireAtStop_stepCtr r _

theorem issue_stepCtr {u : PathUse} {rule : State → Except FaultReason State} {s t : State}
    (hrule : rule s = .ok t → t.stepCtr = s.stepCtr) (h : issue u rule s = .next t) : t.stepCtr = s.stepCtr := by
  obtain ⟨-, ⟨k, rfl⟩ | ⟨-, h⟩⟩ := issue_next h
  · rfl
  · exact hrule h

/-- No command but FSM_EVENT writes STEP in its issue step (R31). -/
theorem exec_stepCtr {i : Instr} {s t : State} (hi : i ≠ .fsmEvent) (h : exec i s = .next t) :
    t.stepCtr = s.stepCtr := by
  cases i with
  | start | writeByte | readAck | readNack | writeTxn | readTxn => exact issue_stepCtr issuePhase_stepCtr h
  | stop =>
    refine issue_stepCtr (fun h => ?_) h
    obtain ⟨u, hu, rfl⟩ := map_ok_iff.1 h
    obtain ⟨-, rfl⟩ := trigger_ok_iff.1 hu
    rfl
  | getStatus => exact issue_stepCtr (u := .pureRead) (rule := statusRule) (fun h => Except.ok.inj h ▸ rfl) h
  | readReg off => exact issue_stepCtr (u := .pureRead) (rule := readRule off) (fun h => Except.ok.inj h ▸ rfl) h
  | fsmEvent => exact absurd rfl hi

theorem issueWord_stepCtr {w : Word} {s t : State} (h : issueWord w s = .next t) (hne : t.stepCtr ≠ s.stepCtr) :
    decode w = .ok .fsmEvent := by
  unfold issueWord at h
  split at h
  · cases h
  · split at h
    · cases h
      exact absurd rfl hne
    · next i hi =>
      obtain rfl : i = .fsmEvent := by_contra fun hi => hne (exec_stepCtr hi h)
      exact hi

/-- A context that writes STEP issues an FSM_EVENT (R31): the step of a running command never does. -/
theorem contextStep_stepCtr {c : Ctx} {s t : State} (h : contextStep c s = .next t) (hne : t.stepCtr ≠ s.stepCtr) :
    outstanding c s = false ∧ ∃ w ws, port c s = w :: ws ∧ decode w = .ok .fsmEvent := by
  cases hout : outstanding c s with
  | true =>
    obtain ⟨r, hrun, rfl⟩ := outstanding_iff.1 hout
    rw [contextStep_of_run hrun] at h
    obtain hsame | ⟨hidle, -⟩ := effect_stepCtr (conclude_effect (fun u hu => continueCommand_ok hrun hu) h)
    · exact absurd hsame hne
    · simp [hrun] at hidle
  | false =>
    rw [contextStep_of_free hout, issueNext] at h
    split at h
    · cases h
      exact absurd rfl hne
    · next w ws hport => exact ⟨rfl, w, ws, hport, issueWord_stepCtr h (by simpa using hne)⟩

/-- Settles O51: ENGINE and the running commands never write STEP, and of the commands issued only FSM_EVENT does
(`contextStep_stepCtr`). -/
theorem onlyEventsWriteStep : Obligations.OnlyEventsWriteStep := by
  intro s t h hne
  rw [← takeMove_stepCtr s] at hne
  have h := agentStep_of_step h
  cases hm : (takeMove s).1 with
  | context c =>
    rw [hm] at h
    obtain ⟨hout, w, ws, hport, hdec⟩ := contextStep_stepCtr h hne
    exact ⟨c, w, ws, rfl, (outstanding_takeMove c s).symm.trans hout, (port_takeMove c s).symm.trans hport, hdec⟩
  | engine a =>
    rw [hm] at h
    obtain rfl := Host.Outcome.next.inj h
    obtain he | ⟨op, -, -, he⟩ := engineStep_cases a (takeMove s).2
    · exact absurd (congrArg State.stepCtr he) hne
    · exact absurd ((congrArg State.stepCtr he).trans (complete_stepCtr op a _)) hne

/-- Settles O54: no effect of a context writes CODE (`effect_keeps`), so the step is a completion by ENGINE. -/
theorem onlyEngineWritesStatus : Obligations.OnlyEngineWritesStatus := by
  intro s t h hne
  obtain ⟨-, ⟨c, u, -, hu, heff⟩ | ⟨a, u, hm, hu, heng⟩⟩ := step_cases h
  all_goals obtain ⟨-, hcode, -⟩ := registers_of_sameBlock hu
  · exact absurd ((effect_keeps heff).2.1.trans hcode) hne
  · obtain ⟨hcfg, -, hpend⟩ := bus_of_sameBlock hu
    obtain rfl | ⟨op, hop, hadm, -⟩ := heng
    · exact absurd hcode hne
    · exact ⟨a, op, congrArg Prod.fst hm, hpend ▸ hop, hcfg ▸ hadm⟩

/-- Settles O55: ENGINE never writes RESULT, and an effect of a context that does ends a transaction with the value its
owner gets (`effect_result`). -/
theorem onlyTransactionEndWritesResult : Obligations.OnlyTransactionEndWritesResult := by
  intro s t h hne
  obtain ⟨-, ⟨c, u, -, hu, heff⟩ | ⟨a, u, -, hu, heng⟩⟩ := step_cases h
  all_goals obtain ⟨-, -, -, -, hresult, -, hresponses⟩ := registers_of_sameBlock hu
  · obtain hsame | ⟨r, _, _, _, _, hrun, htxn, hidle, hword, hresp⟩ := effect_result heff
    · exact absurd (hsame.trans hresult) hne
    · exact ⟨r, (runs_of_sameBlock hu).1 ▸ hrun, isTxn_iff.1 htxn, hidle, by rw [hresp, hresponses, hword]⟩
  · obtain rfl | ⟨op, -, -, rfl⟩ := heng
    · exact absurd hresult hne
    · exact absurd ((complete_result op a u).trans hresult) hne

/-- Settles O52: a context's effect writes LAST only as it records the third byte (`effect_last`), and ENGINE only by the
capture latch (`complete_last`). -/
theorem onlyThirdByteWritesLast : Obligations.OnlyThirdByteWritesLast := by
  intro s t h hne
  obtain ⟨-, ⟨c, u, -, hu, heff⟩ | ⟨a, u, hm, hu, heng⟩⟩ := step_cases h
  all_goals obtain ⟨hdata, -, -, hlast, -, hcap, -⟩ := registers_of_sameBlock hu
  · obtain ⟨hseq, hint, -⟩ := runs_of_sameBlock hu
    obtain hsame | ⟨r, hrun, hint', hrec, hwritten⟩ := effect_last heff
    · exact absurd (hsame.trans hlast) hne
    · obtain ⟨⟨d, g, hcmd⟩, hidx⟩ := recordsByte_iff.1 hrec
      exact .inl ⟨r, d, g, hseq ▸ hrun, hcmd, hidx, hint ▸ hint', hwritten.trans hdata⟩
  · obtain rfl | ⟨op, -, -, rfl⟩ := heng
    · exact absurd hlast hne
    · obtain hsame | ⟨v, hcap', rfl, hwritten⟩ := complete_last op a u
      · exact absurd (hsame.trans hlast) hne
      · exact .inr ⟨v, hcap ▸ hcap', congrArg Prod.fst hm, hwritten⟩

/-- The bits of R22's concatenation, for any value of its five flags. -/
theorem flagByte_bits : ∀ int ea sta sto en : Bool,
    let v : Byte := BitVec.ofBool int ++ BitVec.ofBool ea ++ BitVec.ofBool sta ++ BitVec.ofBool sto ++ 0#1 ++
      BitVec.ofBool en ++ 0#2
    v.getLsbD 7 = int ∧ v.getLsbD 6 = ea ∧ v.getLsbD 5 = sta ∧ v.getLsbD 4 = sto ∧ v.getLsbD 3 = false ∧
      v.getLsbD 2 = en ∧ v.getLsbD 1 = false ∧ v.getLsbD 0 = false := by
  decide

/-- Settles O25: CTRL as read is the concatenation of R22 with STO computed (`flagByte_bits`), and IRQ is INT. -/
theorem controlRegisterLayout : Obligations.ControlRegisterLayout := by
  intro s
  obtain ⟨hint, hea, hsta, hsto, h3, hen, h1, h0⟩ := flagByte_bits s.ctrlInt s.ctrlEa s.ctrlSta (ctrlSto s) s.ctrlEn
  exact ⟨hint, hea, hsta, hsto, h3, hen, h1, h0, rfl⟩

end Sys2Proof.Machine
end

section
/-! The register map of R52, and READ_REG, which responds with its byte. -/

namespace Sys2Proof.Machine

/-- The map names no offset from 0x08 on (R52). -/
theorem regmap_eq_zero_of_le {off : Byte} (h : 8 ≤ off.toNat) (s : State) : regmap off s = 0 := by
  unfold regmap
  split
  case h_9 => rfl
  all_goals omega

/-- The map of R52 as a chain of offsets: the first eight are named, the rest read 0x00 (`regmap_eq_zero_of_le`). -/
theorem regmap_eq (off : Byte) (s : State) :
    regmap off s =
      if off = 0x00 then ctrlByte s
      else if off = 0x01 then statusRaw s
      else if off = 0x02 then s.data
      else if off = 0x03 then s.stepCtr
      else if off = 0x04 then s.last
      else if off = 0x05 then s.result.extractLsb' 0 8
      else if off = 0x06 then s.result.extractLsb' 8 8
      else if off = 0x07 then s.result.extractLsb' 16 8
      else 0x00 := by
  split_ifs with h0 h1 h2 h3 h4 h5 h6 h7
  case neg => exact regmap_eq_zero_of_le (by bv_omega) s
  all_goals subst off; rfl

/-- READ_REG passes the path checks in every state, and its rule responds with the map's byte (R91, R102). -/
theorem exec_readReg_of_unfaulted (off : Byte) {s : State} (h0 : s.fault = 0) :
    exec (.readReg off) s = .next (respond s.issuer (.byte (regmap off s)) s) :=
  (exec_readReg off s).trans (issue_eq_conclude h0 rfl)

/-- Settles O24: READ_REG responds with the byte of `regmap` and changes nothing else (`exec_readReg_of_unfaulted`), and
`regmap` is the map of R52 (`regmap_eq`). -/
theorem readRegReadsMap : Obligations.ReadRegReadsMap := by
  intro s off h0
  rw [exec_readReg_of_unfaulted off h0, regmap_eq]
  rfl

end Sys2Proof.Machine
end

section
/-! The command word (R70 to R74): a word decodes to a command exactly when its used bits are the command's word, and
the words that decode to none. -/

namespace Sys2Proof

/-- Every command's word has its unused fields 0 (R82). -/
theorem encode_and_usedBits (i : Instr) : encode i &&& usedBits i = encode i := by
  have shape : Laws.EncodingShape.Statement i := by
    cases i with
    | start => exact Laws.EncodingShape.start
    | stop => exact Laws.EncodingShape.stop
    | writeByte c => exact Laws.EncodingShape.writeByte c
    | readAck => exact Laws.EncodingShape.readAck
    | readNack => exact Laws.EncodingShape.readNack
    | getStatus => exact Laws.EncodingShape.getStatus
    | readReg off => exact Laws.EncodingShape.readReg off
    | writeTxn dev reg data => exact Laws.EncodingShape.writeTxn dev reg data
    | readTxn dev reg => exact Laws.EncodingShape.readTxn dev reg
    | fsmEvent => exact Laws.EncodingShape.fsmEvent
  obtain ⟨-, -, -, hused⟩ := shape
  exact hused

/-- Two words are equal exactly when their five fields are. -/
theorem word_eq_iff {w v : Word} :
    w = v ↔ opField w = opField v ∧ rsvField w = rsvField v ∧ aField w = aField v ∧ bField w = bField v ∧
      cField w = cField v :=
  ⟨fun h => by simp [h], fun ⟨ho, hr, ha, hb, hc⟩ => word_ext ho hr ha hb hc⟩

/-- The fields a command reads: the whole of OP and RSV, and the operands of R72. -/
theorem fields_usedBits (i : Instr) :
    opField (usedBits i) = 0xF#4 ∧ rsvField (usedBits i) = 0xF#4 ∧
      aField (usedBits i) = (match i with | .writeTxn .. | .readTxn .. => 0xFF#8 | _ => 0#8) ∧
      bField (usedBits i) = (match i with | .writeTxn .. | .readTxn .. => 0xFF#8 | _ => 0#8) ∧
      cField (usedBits i) = (match i with | .writeByte _ | .readReg _ | .writeTxn .. => 0xFF#8 | _ => 0#8) := by
  cases i <;> simp only [usedBits] <;> decide

/-- A word has a command's used bits exactly when it has its OP and RSV, and each operand field agrees on the used
bits. -/
theorem and_usedBits_eq_encode_iff {w : Word} {i : Instr} :
    w &&& usedBits i = encode i ↔
      opField w = opField (encode i) ∧ rsvField w = rsvField (encode i) ∧
        aField w &&& aField (usedBits i) = aField (encode i) ∧
          bField w &&& bField (usedBits i) = bField (encode i) ∧ cField w &&& cField (usedBits i) = cField (encode i) := by
  obtain ⟨fo, fr, fa, fb, fc⟩ := fields_and w (usedBits i)
  obtain ⟨uo, ur, -, -, -⟩ := fields_usedBits i
  have nibble (x : BitVec 4) : x &&& 0xF#4 = x := BitVec.and_allOnes
  rw [word_eq_iff, fo, fr, fa, fb, fc, uo, ur, nibble, nibble]

/-- A word decodes to a command exactly when its used bits are the command's word (R71 to R74): forward by the branches
of the decoder, backward by the command. -/
theorem decode_eq_ok_iff {w : Word} {i : Instr} : decode w = .ok i ↔ w &&& usedBits i = encode i := by
  obtain ⟨-, -, ua, ub, uc⟩ := fields_usedBits i
  have ones (x : Byte) : x &&& 0xFF#8 = x := BitVec.and_allOnes
  rw [and_usedBits_eq_encode_iff, ua, ub, uc]
  clear ua ub uc
  constructor
  · intro h
    unfold decode at h
    split_ifs at h with hr
    rw [not_not] at hr
    split at h <;> cases h <;> rename_i ho <;> simp [BitVec.toNat_eq, ho, hr, encode, fields_wordOfFields, ones]
  · rintro ⟨ho, hr, ha, hb, hc⟩
    cases i <;> simp only [encode, fields_wordOfFields, ones] at ho hr ha hb hc <;> simp [decode, ho, hr, ha, hb, hc]

/-- Settles O1: a command's word has no bit but those it uses (`encode_and_usedBits`), so it decodes to the command
(`decode_eq_ok_iff`). -/
theorem decodeEncodeRoundTrip : Obligations.DecodeEncodeRoundTrip := fun i =>
  decode_eq_ok_iff.2 (encode_and_usedBits i)

/-- Settles O2: which command a word decodes to is read off its used bits alone (`decode_eq_ok_iff`). -/
theorem unusedFieldsIgnored : Obligations.UnusedFieldsIgnored := by
  intro w i h
  have hw : w &&& usedBits i = encode i := decode_eq_ok_iff.1 h
  exact ⟨hw.symm, fun v hv => decode_eq_ok_iff.2 (hv.trans hw)⟩

/-- Settles O3, by the tests of the decoder: RSV first, then each of the sixteen opcodes. -/
theorem illegalWordsExactly : Obligations.IllegalWordsExactly := by
  intro w
  have hlt : (opField w).toNat < 16 := (opField w).isLt
  have hzero : opField w = 0x0 ↔ (opField w).toNat = 0 := BitVec.toNat_eq
  rw [hzero]
  unfold decode
  generalize (opField w).toNat = op at hlt ⊢
  split_ifs with hr
  · simp [hr]
  · rw [not_not] at hr
    interval_cases op <;> simp [hr]

/-- Settles O4: the words of R84 assemble as the spec says, and the word of a command decodes to it
(`decodeEncodeRoundTrip`). -/
theorem exampleWordsDecode : Obligations.ExampleWordsDecode :=
  ⟨rfl, rfl, rfl, rfl, rfl, decodeEncodeRoundTrip (.writeByte 0x50), decodeEncodeRoundTrip (.writeTxn 0x50 0x01 0xAA),
    decodeEncodeRoundTrip (.readTxn 0x00 0x00), decodeEncodeRoundTrip .fsmEvent, decodeEncodeRoundTrip (.readReg 0x04),
    rfl, rfl, rfl, decodeEncodeRoundTrip .start, decodeEncodeRoundTrip .stop, decodeEncodeRoundTrip .readAck,
    decodeEncodeRoundTrip .readNack, decodeEncodeRoundTrip .getStatus⟩

/-- Settles O5: each of the three lines has no operand to check, and expands to a fixed command. -/
theorem pseudoInstructionsExpand : Obligations.PseudoInstructionsExpand := ⟨rfl, rfl, rfl⟩

end Sys2Proof
end

section
/-! The byte of an address phase (R76). -/

namespace Sys2Proof.Machine

/-- The direction bit is bit 0 and no other (R76). -/
theorem getLsbD_dirBit (d : Dir) : ∀ j < 8, (dirBit d).getLsbD j = (decide (j = 0) && decide (d = .read)) := by
  cases d <;> decide

/-- Under SHIFTED the low seven bits of the operand stand one place up, above the direction bit. -/
theorem getLsbD_addrByte_shifted (dev : Byte) (d : Dir) (j : Nat) (hj : j < 8) :
    (addrByte .shifted dev d).getLsbD j = if j = 0 then decide (d = .read) else dev.getLsbD (j - 1) := by
  have mask : ∀ k < 7, (0x7F#8).getLsbD k = true := by decide
  rw [addrByte, BitVec.getLsbD_or, BitVec.getLsbD_shiftLeft, BitVec.getLsbD_and, getLsbD_dirBit d j hj]
  cases j with
  | zero => simp
  | succ k => simp [mask k (by omega), hj]

/-- Settles O6: RAW is the operand by definition, and the bits of SHIFTED are those of `getLsbD_addrByte_shifted`. -/
theorem addressByteForm : Obligations.AddressByteForm := by
  intro dev d
  refine ⟨rfl, BitVec.eq_of_getLsbD_eq fun j hj => ?_, getLsbD_addrByte_shifted dev d 0 (by decide)⟩
  simp [hj, getLsbD_addrByte_shifted dev d (1 + j) (by omega)]

end Sys2Proof.Machine
end

section
/-! What a trigger does, by where the bus stands (R92, R93), and the issue step of a command by its trigger. -/

namespace Sys2Proof.Machine

open Sys2Proof.Safety

/-- With an operation in flight every trigger faults, but for a start that can be latched (R192). -/
theorem checkTrigger_of_busy {op p : BusOp} {s : State} (hp : s.pend = some p)
    (h : op ≠ .start ∨ p ≠ .stop ∨ s.startLatched = true) : checkTrigger op s = some .triggerWhileBusy := by
  simp only [checkTrigger, hp]
  exact if_neg fun ⟨hop, hstop, hl⟩ => by simp [hop, hstop, hl] at h

/-- On a bus not held every trigger but a start faults (R193). -/
theorem checkTrigger_of_not_owned {op : BusOp} {s : State} (hp : s.pend = none) (ho : s.owned = false)
    (hop : op ≠ .start) : checkTrigger op s = some .protocolViolation := by
  simp [checkTrigger, hp, ho, hop]

/-- Directly after a start a receive faults, whether or not the bus is held (R193). -/
theorem checkTrigger_rx_after_start {op : BusOp} {s : State} (hp : s.pend = none) (ha : s.afterStart = true)
    (hop : op = .rxAck ∨ op = .rxNack) : checkTrigger op s = some .protocolViolation := by
  simp [checkTrigger, hp, ha, hop]

/-- A trigger with nothing in flight puts its operation in flight (R92). -/
theorem launch_of_idle {op : BusOp} {s : State} (hp : s.pend = none) :
    launch op s = { s with
      ctrlInt := false
      ctrlEa := (image op).getLsbD 6
      ctrlSta := (image op).getLsbD 5
      ctrlEn := (image op).getLsbD 2
      pend := some op } := by
  simp [launch, latches, hp]

/-- A start triggered during a stop is latched, and the stop stays in flight (R92). -/
theorem launch_start_of_stop {s : State} (hp : s.pend = some .stop) :
    launch .start s = { s with
      ctrlInt := false, ctrlEa := false, ctrlSta := true, ctrlEn := true, startLatched := true } := by
  simp [launch, latches, hp]

theorem issue_blocking {rule : State → Except FaultReason State} {s : State} (h : CanIssue s) :
    issue .blocking rule s = conclude s (rule s) := by
  obtain ⟨h0, hseq, hout⟩ := h
  exact issue_eq_conclude h0 (pathCheck_blocking_none_iff.2 ⟨hseq, hout⟩)

/-- A blocking command whose first trigger is legal makes it and waits (R95, R129). -/
theorem issue_beginCommand_of_legal {cmd : BlockCmd} {ph : Phase} {s : State} (h : CanIssue s)
    (hph : (program s.cfg cmd)[0]? = some ph) (hns : ph ≠ .stop) (hc : checkTrigger (phaseOp ph) s = none) :
    issue .blocking (beginCommand cmd) s =
      .next (await (newRun s.issuer cmd s) (launch (phaseOp ph) (loadPhase ph s))) := by
  rw [issue_blocking h, beginCommand, issuePhase_eq_ok hph hc, if_neg hns, conclude_ok]

/-- A blocking command whose first trigger is illegal raises the trigger's fault (R189). -/
theorem issue_beginCommand_of_illegal {cmd : BlockCmd} {ph : Phase} {s : State} {k : FaultReason} (h : CanIssue s)
    (hph : (program s.cfg cmd)[0]? = some ph) (hc : checkTrigger (phaseOp ph) s = some k) :
    issue .blocking (beginCommand cmd) s = .next (raiseFault k s) := by
  rw [issue_blocking h, beginCommand, issuePhase_eq_error hph hc, conclude_error]

theorem stopRule_of_legal {s : State} (hc : checkTrigger .stop s = none) :
    stopRule s = .ok (respond s.issuer .nothing (launch .stop s)) := by
  rw [stopRule, trigger_eq_ok hc, map_ok]

theorem stopRule_of_illegal {s : State} {k : FaultReason} (hc : checkTrigger .stop s = some k) :
    stopRule s = .error k :=
  map_error_iff.2 (trigger_error_iff.2 hc)

/-- Where a receive's trigger is illegal, READ_ACK and READ_NACK raise its fault. -/
theorem exec_reads_of_illegal {s : State} {k : FaultReason} (h : CanIssue s)
    (hc : ∀ op, op = .rxAck ∨ op = .rxNack → checkTrigger op s = some k) :
    ∀ i ∈ [Instr.readAck, .readNack], exec i s = .next (raiseFault k s) := by
  intro i hi
  rcases List.mem_pair.1 hi with rfl | rfl
  · exact issue_beginCommand_of_illegal h rfl (hc .rxAck (.inl rfl))
  · exact issue_beginCommand_of_illegal h rfl (hc .rxNack (.inr rfl))

/-- Where every trigger but a start is illegal with one fault, the commands that trigger one raise it. -/
theorem exec_bytes_of_illegal {s : State} {k : FaultReason} (h : CanIssue s)
    (hc : ∀ op, op ≠ .start → checkTrigger op s = some k) :
    (∀ i ∈ [Instr.stop, .readAck, .readNack], exec i s = .next (raiseFault k s)) ∧
      ∀ c, exec (.writeByte c) s = .next (raiseFault k s) := by
  constructor
  · rw [List.forall_mem_cons]
    refine ⟨?_, exec_reads_of_illegal h fun op hop => hc op (by rcases hop with rfl | rfl <;> nofun)⟩
    rw [exec_stop, issue_blocking h, stopRule_of_illegal (hc .stop nofun), conclude_error]
  · exact fun c => issue_beginCommand_of_illegal h rfl (hc .tx nofun)

/-- The event-driven machine triggers in the states 0 to 8 alone (R152). -/
theorem le_of_eventPhase {c : Config} {n : Nat} {ph : Phase} (h : eventPhase c n = some ph) : n ≤ 8 := by
  by_contra hgt
  obtain ⟨m, rfl⟩ : ∃ m, n = m + 9 := ⟨n - 9, by omega⟩
  cases h

theorem eventPhase_of_start_state {v : Byte} (c : Config) (hv : v ∈ [0#8, 3#8]) :
    eventPhase c v.toNat = some .start := by
  rcases List.mem_pair.1 hv with rfl | rfl <;> rfl

theorem eventPhase_of_byte_state {v : Byte} (c : Config) (hv : v ∈ [1#8, 2#8, 4#8, 5#8, 6#8, 7#8, 8#8]) :
    ∃ ph, eventPhase c v.toNat = some ph ∧ phaseOp ph ≠ .start := by
  simp only [List.mem_cons, List.not_mem_nil, or_false] at hv
  rcases hv with rfl | rfl | rfl | rfl | rfl | rfl | rfl <;> exact ⟨_, rfl, nofun⟩

theorem eventPhase_of_receive_state {v : Byte} (c : Config) (hv : v ∈ [5#8, 6#8, 7#8]) :
    ∃ ph, eventPhase c v.toNat = some ph ∧ (phaseOp ph = .rxAck ∨ phaseOp ph = .rxNack) := by
  simp only [List.mem_cons, List.not_mem_nil, or_false] at hv
  rcases hv with rfl | rfl | rfl
  · exact ⟨.rxAck, rfl, .inl rfl⟩
  · exact ⟨.rxAck, rfl, .inl rfl⟩
  · exact ⟨.rxNack, rfl, .inr rfl⟩

/-- An action whose trigger is illegal raises the trigger's fault. -/
theorem act_eq_error {n : Nat} {s : State} {ph : Phase} {k : FaultReason} (hph : eventPhase s.cfg n = some ph)
    (hc : checkTrigger (phaseOp ph) s = some k) : act n s = .error k := by
  match n, le_of_eventPhase hph with
  | 0, _ | 3, _ | 5, _ | 6, _ | 8, _ =>
    cases hph
    exact trigger_error_iff.2 hc
  | 1, _ | 2, _ | 4, _ =>
    cases hph
    exact sendByte_error_iff.2 hc
  | 7, _ =>
    cases hph
    exact map_error_iff.2 (trigger_error_iff.2 hc)

theorem exec_fsmEvent_of_canEvent {s : State} (h : CanEvent s) : exec .fsmEvent s = conclude s (eventRule s) :=
  issue_eq_conclude h.1 (pathCheck_event_none_iff.2 h.2)

/-- An event whose trigger is legal makes it and goes one state on (R151). -/
theorem exec_fsmEvent_of_legal {s : State} {ph : Phase} (h : CanEvent s)
    (hph : eventPhase s.cfg s.stepCtr.toNat = some ph) (hc : checkTrigger (phaseOp ph) s = none) :
    exec .fsmEvent s =
      .next (finishEvent (s.stepCtr + 1) (armed s.stepCtr.toNat (launch (phaseOp ph) (loadPhase ph s)))) := by
  have hle := le_of_eventPhase hph
  rw [exec_fsmEvent_of_canEvent h, eventRule, if_pos hle, (act_ok_iff hle).2 ⟨ph, hph, hc, rfl⟩, map_ok, conclude_ok]

/-- An event whose trigger is illegal raises the trigger's fault (R189). -/
theorem exec_fsmEvent_of_illegal {s : State} {ph : Phase} {k : FaultReason} (h : CanEvent s)
    (hph : eventPhase s.cfg s.stepCtr.toNat = some ph) (hc : checkTrigger (phaseOp ph) s = some k) :
    exec .fsmEvent s = .next (raiseFault k s) := by
  rw [exec_fsmEvent_of_canEvent h, eventRule, if_pos (le_of_eventPhase hph), act_eq_error hph hc, map_error,
    conclude_error]

end Sys2Proof.Machine
end

section
/-! The step of a context whose command waits (R95, R131), by INT and the check of the phase. -/

namespace Sys2Proof.Machine

open Sys2Proof.Safety

/-- The masked status value reads CODE (R171). -/
theorem statusRaw_and_mask (s : State) : statusRaw s &&& 0xF8 = statusValue s := by
  have hmask : (0xF8 : Byte) = BitVec.allOnes 5 ++ 0#3 := rfl
  rw [statusRaw, hmask, BitVec.and_append, BitVec.and_allOnes, BitVec.and_zero, statusValue]

theorem statusRaw_takeMove (s : State) : statusRaw (takeMove s).2 = statusRaw s := by
  rw [statusRaw, takeMove_code, takeMove_cfg, statusRaw]

theorem checkTrigger_takeMove (op : BusOp) (s : State) : checkTrigger op (takeMove s).2 = checkTrigger op s :=
  checkTrigger_congr op (takeMove_pend s) (takeMove_owned s) (takeMove_afterStart s) (takeMove_startLatched s)

/-- The check of R131 fails exactly under LIVE where the phase expects a code and STATUS holds another. -/
theorem checkFails_iff {r : Run} {s : State} :
    checkFails r s = true ↔
      s.cfg.checkMode = .live ∧
        ∃ n, expected r.cmd r.idx = some n ∧ statusRaw s &&& 0xF8 ≠ s.cfg.statusCodes.value n := by
  rw [statusRaw_and_mask]
  unfold checkFails check
  cases s.cfg.checkMode <;> cases expected r.cmd r.idx <;> simp

theorem checkFails_of_passes {r : Run} {s : State} (h : PhasePasses r s) : checkFails r s = false := by
  rw [← Bool.not_eq_true, checkFails_iff]
  rintro ⟨hlive, n, hn, hne⟩
  obtain hinert | hnone | ⟨m, hm, heq⟩ := h
  · simp [hinert] at hlive
  · simp [hnone] at hn
  · obtain rfl : n = m := Option.some.inj (hn.symm.trans hm)
    exact hne heq

theorem checkFails_takeMove (r : Run) (s : State) : checkFails r (takeMove s).2 = checkFails r s := by
  rw [Bool.eq_iff_iff, checkFails_iff, checkFails_iff, statusRaw_takeMove, takeMove_cfg]

theorem takeMove_of_waitStep {s u : State} {r : Run} (h : WaitStep s u r) : (takeMove s).2 = u := by
  obtain ⟨-, hm, -⟩ := h
  rw [hm]

/-- The step of a context whose command waits continues the command (R95). -/
theorem step_of_wait {s u : State} {r : Run} (h : WaitStep s u r) :
    step s = conclude u (if s.ctrlInt then observe r u else .ok (poll r u)) := by
  obtain ⟨h0, hm, hseq, hw⟩ := h
  obtain rfl : (takeMove s).2 = u := congrArg Prod.snd hm
  rw [step_of_move h0 hm, agentStep, contextStep_of_run ((takeMove_seq s).trans hseq), continueCommand, if_pos hw,
    takeMove_ctrlInt]

theorem step_of_observe {s u : State} {r : Run} (h : WaitStep s u r) (hint : s.ctrlInt = true) :
    step s = conclude u (observe r u) := by
  rw [step_of_wait h, if_pos hint]

theorem step_of_poll {s u : State} {r : Run} (h : WaitStep s u r) (hint : s.ctrlInt = false) :
    step s = .next (poll r u) := by
  rw [step_of_wait h, hint, if_neg Bool.false_ne_true, conclude_ok]

theorem observe_of_isTxn {r : Run} (hcmd : isTxn r.cmd = true) (s : State) : observe r s = completePhase r s := by
  unfold observe
  split
  case h_5 | h_6 => rfl
  all_goals next h => simp [h, isTxn] at hcmd

/-- A phase that passes its check is followed by its successor's trigger, and raises the fault of an illegal one (R131,
R189). -/
theorem step_of_illegal_phase {s u : State} {r : Run} {ph : Phase} {k : FaultReason} (h : WaitStep s u r)
    (hint : s.ctrlInt = true) (hcmd : isTxn r.cmd = true) (hpass : PhasePasses r s) (hph : r.prog[r.idx]? = some ph)
    (hc : checkTrigger (phaseOp ph) s = some k) : step s = .next (raiseFault k u) := by
  obtain rfl := takeMove_of_waitStep h
  have hchk : checkFails r (takeMove s).2 = false := (checkFails_takeMove r s).trans (checkFails_of_passes hpass)
  have hnext : (nextPhase r (takeMove s).2).prog[(nextPhase r (takeMove s).2).idx - 1]? = some ph := hph
  rw [step_of_observe h hint, observe_of_isTxn hcmd, completePhase, if_neg (by simp [hchk]),
    issuePhase_eq_error hnext ((recordLast_checkTrigger _ r _).trans ((checkTrigger_takeMove _ s).trans hc)),
    conclude_error]

/-- A failed check on a held bus aborts with a stop, and raises the fault of an illegal one (R133, R189). -/
theorem step_of_illegal_abort {s u : State} {r : Run} {k : FaultReason} (h : WaitStep s u r) (hint : s.ctrlInt = true)
    (hcmd : isTxn r.cmd = true) (hfail : checkFails r s = true) (ho : s.owned = true)
    (hc : checkTrigger .stop s = some k) : step s = .next (raiseFault k u) := by
  obtain rfl := takeMove_of_waitStep h
  have herr : trigger .stop (takeMove s).2 = .error k := trigger_error_iff.2 ((checkTrigger_takeMove _ s).trans hc)
  rw [step_of_observe h hint, observe_of_isTxn hcmd, completePhase, if_pos ((checkFails_takeMove r s).trans hfail),
    abortTxn, takeMove_owned, if_pos ho, herr, map_error, conclude_error]

end Sys2Proof.Machine
end

section
/-! The faults of an illegal trigger (R192, R193) and the latched start (R92). -/

namespace Sys2Proof.Machine

open Sys2Proof.Safety

theorem phaseOp_eq_start_iff {ph : Phase} : phaseOp ph = .start ↔ ph = .start := by
  cases ph <;> simp [phaseOp]

/-- Settles O15: with an operation in flight every trigger but a start that can be latched is illegal
(`checkTrigger_of_busy`), and each of the clauses is a command, event or phase that makes one. -/
theorem triggerWhileBusyFaults : Obligations.TriggerWhileBusyFaults := by
  intro s p hp
  have hbusy : ∀ op, op ≠ .start → checkTrigger op s = some .triggerWhileBusy := fun op hop =>
    checkTrigger_of_busy hp (.inl hop)
  have hstart : p ≠ .stop ∨ s.startLatched = true → checkTrigger .start s = some .triggerWhileBusy := fun hl =>
    checkTrigger_of_busy hp (.inr hl)
  refine ⟨fun h => (exec_bytes_of_illegal h hbusy).1, fun h => (exec_bytes_of_illegal h hbusy).2, fun h hl => ?_,
    fun h hv => ?_, fun h hv hl => ?_, fun u r h hint hcmd => ⟨fun ph hpass hph hl => ?_, fun n hlive hn hne ho => ?_⟩⟩
  · have hbegin : ∀ cmd, (program s.cfg cmd)[0]? = some .start →
        issue .blocking (beginCommand cmd) s = .next (raiseFault .triggerWhileBusy s) := fun cmd hph =>
      issue_beginCommand_of_illegal h hph (hstart hl)
    exact ⟨hbegin _ rfl, fun _ _ _ => hbegin _ rfl, fun _ _ => hbegin _ rfl⟩
  · obtain ⟨ph, hph, hop⟩ := eventPhase_of_byte_state s.cfg hv
    exact exec_fsmEvent_of_illegal h hph (hbusy _ hop)
  · exact exec_fsmEvent_of_illegal h (eventPhase_of_start_state s.cfg hv) (hstart hl)
  · have hop : phaseOp ph ≠ .start ∨ p ≠ .stop ∨ s.startLatched = true :=
      hl.imp_left (mt phaseOp_eq_start_iff.1)
    exact step_of_illegal_phase h hint (isTxn_iff.2 hcmd) hpass hph (checkTrigger_of_busy hp hop)
  · exact step_of_illegal_abort h hint (isTxn_iff.2 hcmd) (checkFails_iff.2 ⟨hlive, n, hn, hne⟩) ho (hbusy .stop nofun)

/-- Settles O16: on a free bus every trigger but a start is illegal (`checkTrigger_of_not_owned`), and right after a start
a receive is (`checkTrigger_rx_after_start`). -/
theorem protocolViolationFaults : Obligations.ProtocolViolationFaults := by
  intro s hp
  have hfree : s.owned = false → ∀ op, op ≠ .start → checkTrigger op s = some .protocolViolation := fun ho op =>
    checkTrigger_of_not_owned hp ho
  have hrx : s.afterStart = true → ∀ op, op = .rxAck ∨ op = .rxNack → checkTrigger op s = some .protocolViolation :=
    fun ha op => checkTrigger_rx_after_start hp ha
  refine ⟨fun h ho => exec_bytes_of_illegal h (hfree ho), fun h _ ha => exec_reads_of_illegal h (hrx ha),
    fun h ho hv => ?_, fun h _ ha hv => ?_, fun u r ph h hint hcmd hpass hph => ⟨fun ho hns => ?_, fun _ ha hop => ?_⟩⟩
  · obtain ⟨ph, hph, hop⟩ := eventPhase_of_byte_state s.cfg hv
    exact exec_fsmEvent_of_illegal h hph (hfree ho _ hop)
  · obtain ⟨ph, hph, hop⟩ := eventPhase_of_receive_state s.cfg hv
    exact exec_fsmEvent_of_illegal h hph (hrx ha _ hop)
  · exact step_of_illegal_phase h hint (isTxn_iff.2 hcmd) hpass hph (hfree ho _ (mt phaseOp_eq_start_iff.1 hns))
  · have hop : phaseOp ph = .rxAck ∨ phaseOp ph = .rxNack := hop.imp (congrArg phaseOp) (congrArg phaseOp)
    exact step_of_illegal_phase h hint (isTxn_iff.2 hcmd) hpass hph (hrx ha _ hop)

theorem armed_of_start_state {v : Byte} (hv : v ∈ [0#8, 3#8]) (s : State) : armed v.toNat s = s := by
  rcases List.mem_pair.1 hv with rfl | rfl <;> rfl

/-- Settles O18: the start is legal and latched (`launch_start_of_stop`), as the first phase of each of the three
commands and as the action of states 0 and 3. -/
theorem startDuringStopIsLatched : Obligations.StartDuringStopIsLatched := by
  intro s hp hl latched held
  have hc : checkTrigger .start s = none := checkTrigger_none_iff.2 (.inr ⟨rfl, hp, hl⟩)
  have hlaunch : launch .start s = latched := launch_start_of_stop hp
  have hheld : ∀ cmd, CanIssue s → (program s.cfg cmd)[0]? = some .start →
      issue .blocking (beginCommand cmd) s = .next (held cmd) := fun cmd h hph => by
    rw [issue_beginCommand_of_legal h hph nofun hc, loadPhase_start, phaseOp, hlaunch]
    rfl
  refine ⟨decide_eq_true hp, fun h => ⟨hheld _ h rfl, fun _ _ _ => hheld _ h rfl, fun _ _ => hheld _ h rfl⟩,
    fun h hv => ?_⟩
  rw [exec_fsmEvent_of_legal h (eventPhase_of_start_state s.cfg hv) hc, armed_of_start_state hv, loadPhase_start, phaseOp,
    hlaunch]
  rfl

end Sys2Proof.Machine
end

section
/-! The primitive commands in their issue step (R96 to R101), and the issue step reached through the port (R91). -/

namespace Sys2Proof.Machine

open Sys2Proof.Safety

/-- A blocking command with nothing in flight puts its first operation in flight, its byte in DATA, and waits. -/
theorem issue_beginCommand_of_idle {cmd : BlockCmd} {ph : Phase} {op : BusOp} {s : State} (h : CanIssue s)
    (hp : s.pend = none) (hph : (program s.cfg cmd)[0]? = some ph) (hop : phaseOp ph = op) (hns : op ≠ .stop)
    (hheld : op = .start ∨ s.owned = true) (hrx : op = .rxAck ∨ op = .rxNack → s.afterStart = false) :
    issue .blocking (beginCommand cmd) s = .next { loadPhase ph s with
      ctrlInt := false
      ctrlEa := (image op).getLsbD 6
      ctrlSta := (image op).getLsbD 5
      ctrlEn := (image op).getLsbD 2
      pend := some op
      seq := firstWait s.issuer cmd (program s.cfg cmd) } := by
  subst op
  have hc : checkTrigger (phaseOp ph) s = none := checkTrigger_none_iff.2 (.inl ⟨hp, hheld, hrx⟩)
  rw [issue_beginCommand_of_legal h hph (fun hstop => hns (congrArg phaseOp hstop)) hc,
    launch_of_idle (s := loadPhase ph s) hp]
  rfl

/-- Settles O17, as the one phase of START with nothing in flight (`issue_beginCommand_of_idle`). -/
theorem startTriggersAndWaits : Obligations.StartTriggersAndWaits := fun _ h hp =>
  issue_beginCommand_of_idle (ph := .start) (op := .start) h hp rfl rfl nofun (.inl rfl) nofun

/-- Settles O21, as the one phase of WRITE_BYTE with nothing in flight (`issue_beginCommand_of_idle`). -/
theorem writeByteTriggersAndWaits : Obligations.WriteByteTriggersAndWaits := fun _ c h hp ho =>
  issue_beginCommand_of_idle (cmd := .writeByte c) (ph := .tx c) (op := .tx) h hp rfl rfl nofun (.inr ho) nofun

/-- Settles O22, as the one phase of each receive with nothing in flight (`issue_beginCommand_of_idle`). -/
theorem readByteTriggersAndWaits : Obligations.ReadByteTriggersAndWaits := fun _ h hp ho ha =>
  ⟨issue_beginCommand_of_idle (ph := .rxAck) (op := .rxAck) h hp rfl rfl nofun (.inr ho) fun _ => ha,
    issue_beginCommand_of_idle (ph := .rxNack) (op := .rxNack) h hp rfl rfl nofun (.inr ho) fun _ => ha⟩

/-- Settles O19: the stop is legal on a held bus with nothing in flight, and STOP's rule only adds the response. -/
theorem stopTriggersAndRetires : Obligations.StopTriggersAndRetires := by
  intro s h hp ho
  have hc : checkTrigger .stop s = none := checkTrigger_none_iff.2 (.inl ⟨hp, .inr ho, nofun⟩)
  rw [exec_stop, issue_blocking h, stopRule_of_legal hc, launch_of_idle hp]
  rfl

/-- The issue step of STOP raises a fault of the path checks or of the trigger's, or makes the stop and answers NONE. -/
theorem exec_stop_cases {s : State} (h0 : s.fault = 0) :
    (∃ k, exec .stop s = .next (raiseFault k s)) ∨
      exec .stop s = .next (respond s.issuer .nothing (launch .stop s)) := by
  rw [exec_stop]
  cases hpath : pathCheck .blocking s with
  | some k => exact .inl ⟨k, issue_eq_raise h0 hpath⟩
  | none =>
    rw [issue_eq_conclude h0 hpath]
    cases hc : checkTrigger .stop s with
    | some k => exact .inl ⟨k, by rw [stopRule_of_illegal hc, conclude_error]⟩
    | none => exact .inr (by rw [stopRule_of_legal hc, conclude_ok])

/-- Settles O20: neither a fault raised nor the stop made writes SEQ (`exec_stop_cases`). -/
theorem stopNeverBlocks : Obligations.StopNeverBlocks := by
  intro s h0
  obtain ⟨k, h⟩ | h := exec_stop_cases h0
  · exact ⟨_, h, rfl, .inr ⟨faultCode_ne_zero k, rfl⟩⟩
  · exact ⟨_, h, rfl, .inl ⟨h0, rfl⟩⟩

/-- Settles O23: GET_STATUS passes the path checks in every state and responds with the masked status
(`statusRaw_and_mask`). -/
theorem getStatusIsPureRead : Obligations.GetStatusIsPureRead := by
  refine ⟨decodeEncodeRoundTrip .getStatus, fun s h0 => ?_⟩
  rw [exec_getStatus, issue_eq_conclude h0 rfl, statusRaw_and_mask]
  rfl

/-- In a block not faulted a word that decodes is its command (R91). -/
theorem issueWord_of_decode {w : Word} {i : Instr} {s : State} (h0 : s.fault = 0) (hw : decode w = .ok i) :
    issueWord w s = exec i s := by
  rw [issueWord, if_neg (not_not.2 h0), hw]

/-- Settles O9: the context issues the word at the head of its port, which taking the move leaves there. -/
theorem stepRunsDecodedCommand : Obligations.StepRunsDecodedCommand := by
  intro s u c w ws i h0 hm hfree hport hw
  obtain rfl : (takeMove s).2 = u := congrArg Prod.snd hm
  rw [step_of_move h0 hm, agentStep, contextStep_of_free ((outstanding_takeMove c s).trans hfree), issueNext,
    (port_takeMove c s).trans hport]
  exact issueWord_of_decode (by simpa using h0) hw

/-- MAIN or, while MAIN's command runs, HANDLER has no command outstanding: one command runs at most (R42). -/
theorem outstanding_freeContext (s : State) : outstanding (freeContext s) s = false := by
  unfold freeContext
  split
  · next hmain =>
    obtain ⟨r, hrun, howner⟩ := outstanding_iff.1 hmain
    simp [outstanding, hrun, howner]
  · next hmain => simpa using hmain

theorem decode_of_decodeTableWord {n w : Nat} {i : Instr} (h : decodeTableWord n w = some i) :
    decode (tableWord n w) = .ok i := by
  unfold decodeTableWord at h
  split at h <;> cases h
  assumption

theorem port_placeWord (w : Word) (s : State) :
    port (freeContext s) (placeWord w s) = w :: port (freeContext s) s := by
  unfold placeWord
  cases freeContext s <;> rfl

theorem sameBlock_placeWord (w : Word) (s : State) : SameBlock s (placeWord w s) := by
  unfold placeWord
  cases freeContext s <;> rfl

theorem outstanding_of_sameBlock {s u : State} (h : SameBlock s u) (c : Ctx) : outstanding c u = outstanding c s := by
  rw [h]
  rfl

/-- Settles O10: the placed word is the next of a free context that moves next, so the step runs its command
(`stepRunsDecodedCommand`), on a state that has the block of `s`. -/
theorem placedWordRunsNext : Obligations.PlacedWordRunsNext := by
  intro s w i h0 hw
  let p := placeWord (tableWord 32 w) s
  have hp : SameBlock s p := sameBlock_placeWord _ s
  have hfree : outstanding (freeContext s) s = false := outstanding_freeContext s
  refine ⟨atPort (freeContext s) (port (freeContext s) s) (takeMove p).2,
    sameBlock_trans hp (sameBlock_trans (sameBlock_takeMove p) (sameBlock_atPort _ _ _)), hfree, ?_⟩
  exact stepRunsDecodedCommand p (takeMove p).2 (freeContext s) (tableWord 32 w) _ i (by rw [hp]; exact h0) rfl
    ((outstanding_of_sameBlock hp _).trans hfree) (port_placeWord _ s) (decode_of_decodeTableWord hw)

end Sys2Proof.Machine
end

section
/-! The wait of a blocking command (R95, R134), observed or polled. -/

namespace Sys2Proof.Machine

open Sys2Proof.Safety

/-- Taking the move writes `sched` and `moves` alone. -/
theorem eq_with_of_takeMove {s u : State} {m : Move} (hm : takeMove s = (m, u)) :
    ∃ ms n, u = { s with sched := ms, moves := n } :=
  ⟨_, _, takeMove_snd hm⟩

/-- Settles O28: the observing step (`step_of_observe`) retires a primitive with NONE, or with DATA for a read. -/
theorem primitiveRetiresOnFlag : Obligations.PrimitiveRetiresOnFlag := by
  intro s u r h hint
  rw [step_of_observe h hint, observe]
  obtain ⟨-, hm, -⟩ := h
  obtain ⟨ms, n, rfl⟩ := eq_with_of_takeMove hm
  constructor
  · rintro (hcmd | ⟨c, hcmd⟩) <;> rw [hcmd] <;> rfl
  · rintro (hcmd | hcmd) <;> rw [hcmd] <;> rfl

/-- Settles O29: a poll under WAIT_BOUND = NONE is the identity. -/
theorem unboundedWaitHolds : Obligations.UnboundedWaitHolds := by
  intro s u r h hint hb
  obtain rfl := takeMove_of_waitStep h
  rw [step_of_poll h hint, poll, takeMove_cfg, hb]

/-- A primitive's wait that times out responds TIMEOUT (R95). -/
theorem timeOut_of_primitive {r : Run} (hcmd : isTxn r.cmd = false) (s : State) :
    timeOut r s = retirePrimitive r .timeout s := by
  unfold timeOut
  split
  case h_1 h | h_2 h => simp [h, isTxn] at hcmd
  all_goals rfl

/-- A transaction's wait that times out ends it with its phase in RESULT (R134). -/
theorem timeOut_of_isTxn {r : Run} (hcmd : isTxn r.cmd = true) (s : State) :
    timeOut r s = finishTxn r (resultWord .timeout r.idx 0 0) s := by
  unfold timeOut
  split
  case h_1 | h_2 => rfl
  all_goals next h => simp [h, isTxn] at hcmd

/-- A poll of a bounded wait is counted, and the last one times out (R95). -/
theorem step_of_bounded_poll {s u : State} {r : Run} {n : Nat} (h : WaitStep s u r) (hint : s.ctrlInt = false)
    (hb : s.cfg.waitBound = some n) :
    step s = .next
      (if r.polls + 1 = n then timeOut r u else { u with seq := .run { r with polls := r.polls + 1 } }) := by
  obtain rfl := takeMove_of_waitStep h
  rw [step_of_poll h hint, poll, takeMove_cfg, hb]

/-- The primitives that wait are WRITE_BYTE, START and the two reads (R96 to R100). -/
theorem isTxn_eq_false_iff {cmd : BlockCmd} :
    isTxn cmd = false ↔ (∃ c, cmd = .writeByte c) ∨ cmd ∈ [BlockCmd.start, .readAck, .readNack] := by
  cases cmd <;> simp [isTxn]

/-- Settles O30: a poll of a bounded wait (`step_of_bounded_poll`) counts, or is the n-th and times out
(`timeOut_of_primitive`, `timeOut_of_isTxn`). -/
theorem boundedWaitPollsAndTimesOut : Obligations.BoundedWaitPollsAndTimesOut := by
  intro s u r n h hint hb
  rw [step_of_bounded_poll h hint hb]
  obtain ⟨-, hm, -⟩ := h
  obtain ⟨ms, m, rfl⟩ := eq_with_of_takeMove hm
  refine ⟨fun hne => by rw [if_neg hne], fun hn => ?_⟩
  rw [if_pos hn]
  constructor
  · intro hcmd
    rw [timeOut_of_primitive (isTxn_eq_false_iff.2 hcmd)]
    rfl
  · intro hcmd
    rw [timeOut_of_isTxn (isTxn_iff.2 hcmd)]
    rfl

end Sys2Proof.Machine
end

section
/-! ENGINE's completions (R103 to R110), and DATA during a transmit (R94). -/

namespace Sys2Proof.Machine

open Sys2Proof.Safety

/-- ENGINE's move with an answer the operation in flight admits completes it (R103). -/
theorem step_of_answer {s u : State} {a : Answer} {op : BusOp} (h : EngineMove s u a) (hp : s.pend = some op)
    (ha : admits s.cfg op a = true) : step s = .next (complete op a u) := by
  obtain ⟨h0, hm⟩ := h
  obtain ⟨ms, n, rfl⟩ := eq_with_of_takeMove hm
  rw [step_of_move h0 hm, agentStep, engineStep, hp]
  exact congrArg _ (if_pos ha)

/-- ENGINE's move with an answer that nothing in flight admits uses up the move alone (R103, R110). -/
theorem step_of_refused {s u : State} {a : Answer} (h : EngineMove s u a)
    (hno : ∀ op, s.pend = some op → admits s.cfg op a = false) : step s = .next u := by
  obtain ⟨h0, hm⟩ := h
  obtain rfl : (takeMove s).2 = u := congrArg Prod.snd hm
  have hdis : engineEnabled a s = false := by
    cases hp : s.pend with
    | none => simp [engineEnabled, hp]
    | some op => simp [engineEnabled, hp, hno op hp]
  rw [step_of_move h0 hm, agentStep,
    engineStep_of_disabled ((takeMove_fault s).trans h0) ((engineEnabled_takeMove a s).trans hdis)]

/-- Which operation may be in flight for BUS to give an answer (R110). -/
theorem admits_iff {c : Config} {op : BusOp} {a : Answer} :
    admits c op a = true ↔
      match a with
      | .done => op = .start ∨ op = .stop
      | .acked _ => op = .tx
      | .byte _ => op = .rxAck ∨ op = .rxNack
      | .busError => op ≠ .stop ∧ c.admitBusError = true := by
  cases a <;> cases op <;> simp [admits]

/-- Settles O43: whatever the answer, no clause leaves an operation in flight that admits it (`admits_iff`). -/
theorem engineWithoutAdmittedAnswerHolds : Obligations.EngineWithoutAdmittedAnswerHolds := by
  intro s u a h hcases
  refine step_of_refused h fun op hop => Bool.eq_false_iff.2 fun hadm => ?_
  rw [admits_iff] at hadm
  cases a with
  | done => rcases hadm with rfl | rfl <;> simp [hop] at hcases
  | acked k =>
    subst hadm
    cases k <;> simp [hop] at hcases
  | byte v => rcases hadm with rfl | rfl <;> simp [hop] at hcases
  | busError =>
    obtain ⟨hns, hbe⟩ := hadm
    simp [hop, hns, hbe] at hcases

/-- The code of a completed start, restarted on a held bus (R174). -/
theorem codeBits_startCode (c : Config) (owned : Bool) :
    codeBits c (startCode owned) =
      if owned then c.statusCodes.repStartSent.extractLsb' 3 5 else c.statusCodes.startSent.extractLsb' 3 5 := by
  cases owned <;> rfl

/-- Settles O38: the completion of a start, its code by `codeBits_startCode`. -/
theorem engineCompletesStart : Obligations.EngineCompletesStart := by
  intro s u h hp
  rw [step_of_answer h hp rfl, ← codeBits_startCode]
  obtain ⟨ms, n, rfl⟩ := eq_with_of_takeMove h.2
  rfl

/-- Settles O39, by the two kinds of transmit; the code of an address phase goes by the direction bit on the wire. -/
theorem engineCompletesTransmit : Obligations.EngineCompletesTransmit := by
  intro s u a h hp
  rw [step_of_answer h hp rfl, complete]
  obtain ⟨ms, n, rfl⟩ := eq_with_of_takeMove h.2
  constructor
  · intro ha
    simp only [completeTx, ha, if_true, finishOp, emit, setCode]
    cases s.data.getLsbD 0 <;> cases a <;> rfl
  · intro ha
    simp only [completeTx, ha, finishOp, emit, setCode]
    cases a <;> rfl

/-- Settles O40: either receive ends with the byte in DATA, and in LAST where the capture is armed (`capture_eq`). -/
theorem engineCompletesReceive : Obligations.EngineCompletesReceive := by
  intro s u v h
  obtain ⟨ms, n, rfl⟩ := eq_with_of_takeMove h.2
  constructor <;> intro hp <;> rw [step_of_answer h hp rfl, complete, completeRx, capture_eq] <;> rfl

/-- Settles O41: the completion of a stop. -/
theorem engineCompletesStop : Obligations.EngineCompletesStop := by
  intro s u h hp
  rw [step_of_answer h hp rfl]
  obtain ⟨ms, n, rfl⟩ := eq_with_of_takeMove h.2
  rfl

/-- Settles O42: where a bus error is admitted at all, every operation but a stop admits it. -/
theorem engineCompletesBusError : Obligations.EngineCompletesBusError := by
  intro s u op h hp hns hbe
  rw [step_of_answer h hp (admits_iff.2 ⟨hns, hbe⟩)]
  obtain ⟨ms, n, rfl⟩ := eq_with_of_takeMove h.2
  rfl

theorem loadPhase_data_cases (ph : Phase) (s : State) : (loadPhase ph s).data = s.data ∨ phaseOp ph = .tx := by
  cases ph with
  | tx b => exact .inr rfl
  | start | rxAck | rxNack | stop => exact .inl rfl

/-- An effect of a context writes DATA only with a transmit it may trigger (R98, R130, R154). -/
theorem effect_data {s t : State} (e : Effect s t) : t.data = s.data ∨ checkTrigger .tx s = none := by
  cases e with
  | begin _ ph _ _ _ _ hc | event ph _ _ _ hc =>
    exact (loadPhase_data_cases ph s).imp_right fun (htx : phaseOp ph = .tx) => htx ▸ hc
  | nextPhase r ph _ _ _ _ _ _ _ hc =>
    exact (loadPhase_data_cases ph (recordLast r s)).imp_right fun (htx : phaseOp ph = .tx) => htx ▸ hc
  | retireTxn r => exact .inl (retireAtStop_data (nextPhase r s) _)
  | timeOut r => exact .inl (timeOut_data r s)
  | _ => exact .inl rfl

/-- The completion of a transmit, acknowledged or in a bus error, leaves DATA as it is (R105, R109). -/
theorem completion_data {s t : State} (e : Completion s t) (htx : s.pend = some .tx) : t.data = s.data := by
  cases e with
  | tx k => exact completeTx_data k s
  | busError => rfl
  | start hp | stop hp | rx _ _ hp => simp [htx] at hp

/-- Settles O53: a context writes DATA only with a legal transmit (`effect_data`), which none is while one is in flight
(`checkTrigger_of_busy`), and ENGINE only with a receive (`completion_data`). -/
theorem dataStableDuringTransmit : Obligations.DataStableDuringTransmit := by
  intro s t h htx
  obtain ⟨-, ⟨c, u, -, hu, heff⟩ | ⟨a, u, -, hu, heng⟩⟩ := step_cases h
  all_goals
    obtain ⟨hdata, -⟩ := registers_of_sameBlock hu
    have htxu : u.pend = some .tx := (bus_of_sameBlock hu).2.2.trans htx
  · obtain hsame | hc := effect_data heff
    · exact hsame.trans hdata
    · exact nomatch hc.symm.trans (checkTrigger_of_busy htxu (.inl nofun))
  · obtain rfl | ⟨op, hop, hadm, rfl⟩ := heng
    · exact hdata
    · exact (completion_data (complete_completion hop hadm) htxu).trans hdata

end Sys2Proof.Machine
end

section
/-! The observing step of a transaction (R131 to R137): the next phase's trigger, the final stop, and the abort of a
failed check. -/

namespace Sys2Proof.Machine

open Sys2Proof.Safety

/-- A phase that passes its check is followed in the same step by its successor (R131). -/
theorem step_of_passed_phase {s u : State} {r : Run} (h : WaitStep s u r) (hint : s.ctrlInt = true)
    (hcmd : isTxn r.cmd = true) (hpass : PhasePasses r s) :
    step s = conclude u (issuePhase (nextPhase r u) (recordLast r u)) := by
  obtain rfl := takeMove_of_waitStep h
  have hchk : checkFails r (takeMove s).2 = false := (checkFails_takeMove r s).trans (checkFails_of_passes hpass)
  rw [step_of_observe h hint, observe_of_isTxn hcmd, completePhase, hchk, if_neg Bool.false_ne_true]

/-- The writes of a step that triggers the phase `ph` with nothing in flight and leaves SEQ as `q` (R92, R130). -/
def triggered (ph : Phase) (q : Seq) (s : State) : State :=
  { loadPhase ph s with
    ctrlInt := false
    ctrlEa := (image (phaseOp ph)).getLsbD 6
    ctrlSta := (image (phaseOp ph)).getLsbD 5
    ctrlEn := (image (phaseOp ph)).getLsbD 2
    pend := some (phaseOp ph)
    seq := q }

/-- A phase that passes its check, and does not record the third byte, is followed by the trigger of its successor and
the wait for it (R130 to R132). -/
theorem step_of_next_phase {s u : State} {r : Run} {ph : Phase} (h : WaitStep s u r) (hint : s.ctrlInt = true)
    (hcmd : isTxn r.cmd = true) (hrec : recordsByte r = false) (hpass : PhasePasses r s)
    (hph : r.prog[r.idx]? = some ph) (hns : ph ≠ .stop) (hp : s.pend = none)
    (hc : checkTrigger (phaseOp ph) s = none) :
    step s = .next (triggered ph (.run { r with idx := r.idx + 1, waiting := true, polls := 0 }) u) := by
  obtain rfl := takeMove_of_waitStep h
  have hc : checkTrigger (phaseOp ph) (recordLast r (takeMove s).2) = none := (checkTrigger_takeMove _ s).trans hc
  rw [step_of_passed_phase h hint hcmd hpass, issuePhase_eq_ok (ph := ph) hph hc, if_neg hns, conclude_ok,
    launch_of_idle (s := loadPhase ph (recordLast r _)) ((takeMove_pend s).trans hp)]
  simp only [await, nextPhase, recordLast, hrec]
  rfl

/-- A phase before the stop that passes its check is followed by the stop, and the transaction retires (R135, R136). -/
theorem step_of_final_stop {s u : State} {r : Run} (h : WaitStep s u r) (hint : s.ctrlInt = true)
    (hcmd : isTxn r.cmd = true) (hpass : PhasePasses r s) (hph : r.prog[r.idx]? = some .stop) (hp : s.pend = none)
    (ho : s.owned = true) :
    step s = .next (retireAtStop (nextPhase r u) { recordLast r u with
      ctrlInt := false, ctrlEa := false, ctrlSta := false, ctrlEn := true, pend := some .stop }) := by
  obtain rfl := takeMove_of_waitStep h
  have hc : checkTrigger .stop (recordLast r (takeMove s).2) = none :=
    (checkTrigger_takeMove _ s).trans (checkTrigger_none_iff.2 (.inl ⟨hp, .inr ho, nofun⟩))
  rw [step_of_passed_phase h hint hcmd hpass, issuePhase_eq_ok (ph := .stop) hph hc, if_pos rfl, conclude_ok,
    launch_of_idle (s := recordLast r _) ((takeMove_pend s).trans hp)]
  rfl

/-- The writes of a transaction that fails its check (R133): RESULT has the failure, its phase and its code. -/
def failTxn (r : Run) (v : Byte) (s : State) : State :=
  finishTxn r (resultWord (failKind s.cfg.statusCodes v) r.idx v 0) s

/-- A failed check on a held bus aborts with a stop (R133). -/
theorem step_of_abort_held {s u : State} {r : Run} (h : WaitStep s u r) (hint : s.ctrlInt = true)
    (hcmd : isTxn r.cmd = true) (hfail : checkFails r s = true) (hp : s.pend = none) (ho : s.owned = true) :
    step s = .next (failTxn r (statusValue u) { u with
      ctrlInt := false, ctrlEa := false, ctrlSta := false, ctrlEn := true, pend := some .stop }) := by
  obtain rfl := takeMove_of_waitStep h
  have hc : checkTrigger .stop (takeMove s).2 = none :=
    (checkTrigger_takeMove _ s).trans (checkTrigger_none_iff.2 (.inl ⟨hp, .inr ho, nofun⟩))
  rw [step_of_observe h hint, observe_of_isTxn hcmd, completePhase, if_pos ((checkFails_takeMove r s).trans hfail),
    abortTxn, if_pos ((takeMove_owned s).trans ho), trigger_eq_ok hc, map_ok, conclude_ok,
    launch_of_idle ((takeMove_pend s).trans hp)]
  rfl

/-- A failed check on a bus not held aborts without one (R133). -/
theorem step_of_abort_free {s u : State} {r : Run} (h : WaitStep s u r) (hint : s.ctrlInt = true)
    (hcmd : isTxn r.cmd = true) (hfail : checkFails r s = true) (ho : s.owned = false) :
    step s = .next (failTxn r (statusValue u) u) := by
  obtain rfl := takeMove_of_waitStep h
  rw [step_of_observe h hint, observe_of_isTxn hcmd, completePhase, if_pos ((checkFails_takeMove r s).trans hfail),
    abortTxn, takeMove_owned, ho, if_neg Bool.false_ne_true, conclude_ok]
  rfl

/-- A failure is a NACK or an unexpected code (R182). -/
theorem failKind_cases (t : StatusCodes) (v : Byte) : failKind t v = .failNack ∨ failKind t v = .failUnexpected := by
  unfold failKind
  split <;> simp

/-- Settles O26, as the first phase of the program of R126 with nothing in flight (`issue_beginCommand_of_idle`). -/
theorem writeTxnBegins : Obligations.WriteTxnBegins := fun _ _ _ _ h hp =>
  issue_beginCommand_of_idle (ph := .start) (op := .start) h hp rfl rfl nofun (.inl rfl) nofun

/-- Settles O27, as the first phase of the program of R127 with nothing in flight (`issue_beginCommand_of_idle`). -/
theorem readTxnBegins : Obligations.ReadTxnBegins := fun _ _ _ h hp =>
  issue_beginCommand_of_idle (ph := .start) (op := .start) h hp rfl rfl nofun (.inl rfl) nofun

/-- Settles O31: each kind of next phase is legal where the statement has it, and is `step_of_next_phase`. -/
theorem completedPhaseTriggersNext : Obligations.CompletedPhaseTriggersNext := by
  intro s u r ph h hint hcmd hpass hph hp hheld waiting
  have htxn : isTxn r.cmd = true := isTxn_iff.2 (hcmd.imp_right And.left)
  have hrec : recordsByte r = false := by
    rw [← Bool.not_eq_true, recordsByte_iff]
    rintro ⟨⟨d, g, hread⟩, hidx⟩
    obtain ⟨_, _, _, hwrite⟩ | ⟨-, hne⟩ := hcmd
    · simp [hread] at hwrite
    · exact hne hidx
  have hnext : ph ≠ .stop → (phaseOp ph = .rxAck ∨ phaseOp ph = .rxNack → s.afterStart = false) →
      step s = .next (triggered ph waiting u) := fun hns hrx =>
    step_of_next_phase h hint htxn hrec hpass hph hns hp
      (checkTrigger_none_iff.2 (.inl ⟨hp, or_iff_not_imp_left.2 fun hne => hheld (mt (congrArg phaseOp) hne), hrx⟩))
  refine ⟨?_, ?_, ?_, ?_⟩
  · rintro rfl
    exact hnext nofun nofun
  · rintro b rfl
    rw [hnext nofun nofun, triggered, phaseOp]
    rfl
  · rintro rfl ha
    exact hnext nofun fun _ => ha
  · rintro rfl ha
    exact hnext nofun fun _ => ha

/-- Settles O32: the failed check aborts, by who holds the bus (`step_of_abort_held`, `step_of_abort_free`), and RESULT's
KIND is one of two (`failKind_cases`). -/
theorem liveMismatchAborts : Obligations.LiveMismatchAborts := by
  intro s u r n h hint hcmd hlive hn hne v res
  have hfail : checkFails r s = true := checkFails_iff.2 ⟨hlive, n, hn, hne⟩
  have hres : res = resultWord (failKind s.cfg.statusCodes v) r.idx v 0 := by
    obtain hkind | hkind := failKind_cases s.cfg.statusCodes v <;> simp only [res, hkind] <;> rfl
  have hv : v = statusValue s := statusRaw_and_mask s
  clear_value v res
  subst hres hv
  constructor
  · intro ho hp
    rw [step_of_abort_held h hint (isTxn_iff.2 hcmd) hfail hp ho]
    obtain ⟨ms, m, rfl⟩ := eq_with_of_takeMove h.2.1
    rfl
  · intro ho
    rw [step_of_abort_free h hint (isTxn_iff.2 hcmd) hfail ho]
    obtain ⟨ms, m, rfl⟩ := eq_with_of_takeMove h.2.1
    rfl

/-- Settles O33: the phase before the stop passes its check and WRITE_TXN retires (`step_of_final_stop`), by the check
mode. -/
theorem writeTxnRetires : Obligations.WriteTxnRetires := by
  intro s u ⟨owner, cmd, prog, idx, waiting, polls, byte⟩ dev reg data h hint hcmd hprog hidx hp ho done
  dsimp only at hcmd hprog hidx
  subst hcmd hprog hidx
  constructor
  · intro hlive hcode
    rw [step_of_final_stop h hint rfl (.inr (.inr ⟨_, rfl, hcode⟩)) rfl hp ho]
    obtain ⟨ms, n, rfl⟩ := eq_with_of_takeMove h.2.1
    simp only [retireAtStop, nextPhase, recordLast, hlive]
    rfl
  · intro hinert
    rw [step_of_final_stop h hint rfl (.inl hinert) rfl hp ho]
    obtain ⟨ms, n, rfl⟩ := eq_with_of_takeMove h.2.1
    simp only [retireAtStop, nextPhase, recordLast, hinert]
    rfl

/-- Settles O34: phase 8 passes its check and records the third byte, and READ_TXN retires (`step_of_final_stop`). -/
theorem readTxnRecordsAndRetires : Obligations.ReadTxnRecordsAndRetires := by
  intro s u ⟨owner, cmd, prog, idx, waiting, polls, byte⟩ dev reg h hint hcmd hprog hidx hp ho hpass
  dsimp only at hcmd hprog hidx
  subst hcmd hprog hidx
  rw [step_of_final_stop h hint rfl (hpass.imp_right fun hcode => .inr ⟨_, rfl, hcode⟩) rfl hp ho]
  obtain ⟨ms, n, rfl⟩ := eq_with_of_takeMove h.2.1
  rfl

end Sys2Proof.Machine
end

section
/-! The codes of a table that meets R80, and the two address phases of a READ_TXN under RAW (R139, R225). -/

namespace Sys2Proof.Machine

open Sys2Proof.Safety

/-- The thirteen values of a table are pairwise distinct (R80). -/
theorem value_injective {t : StatusCodes} (h : t.wf = true) : Function.Injective t.value := by
  simp only [StatusCodes.wf, Bool.and_eq_true, decide_eq_true_eq] at h
  have hall : ∀ n, n ∈ StatusName.all := fun n => by cases n <;> decide
  exact fun n m hnm => List.inj_on_of_nodup_map h.2 (hall n) (hall m) hnm

/-- A phase that expects a code passes exactly for that code (R80, R181). -/
theorem check_value_iff {t : StatusCodes} (h : t.wf = true) {cmd : BlockCmd} {p : Nat} {n m : StatusName}
    (hn : expected cmd p = some n) : check t cmd p (t.value m) = true ↔ m = n := by
  rw [check, hn, beq_iff_eq, (value_injective h).eq_iff]

/-- The status value of a code of the table (R80, R171). -/
theorem statusRaw_of_code {s : State} {n : StatusName} (hwf : s.cfg.wf = true)
    (hcode : s.code = codeBits s.cfg n) :
    statusRaw s &&& 0xF8 = s.cfg.statusCodes.value n := by
  simp only [Config.wf, StatusCodes.wf, Bool.and_eq_true, List.all_eq_true, beq_iff_eq] at hwf
  have hlow : (s.cfg.statusCodes.value n).extractLsb' 0 3 = 0#3 := hwf.2.1 n (by cases n <;> decide)
  rw [statusRaw_and_mask, statusValue, hcode, codeBits, ← hlow]
  exact (BitVec.extractLsb'_append_extractLsb'_eq_extractLsb' rfl).trans BitVec.extractLsb'_eq_self

/-- Settles O45: phase 2 passes only with the direction bit 0, and phase 5, which sends the same byte, only with it 1
(`check_value_iff`). -/
theorem rawLiveReadCannotPass : Obligations.RawLiveReadCannotPass := by
  intro t dev reg a b hwf hwrite
  rw [check_value_iff hwf rfl] at hwrite
  rw [← Bool.not_eq_true, check_value_iff hwf rfl]
  change addrCode (dev.getLsbD 0) a = .slaWAck at hwrite
  change addrCode (dev.getLsbD 0) b ≠ .slaRAck
  cases hdir : dev.getLsbD 0 with
  | false => cases b <;> simp [addrCode]
  | true =>
    rw [hdir] at hwrite
    cases a <;> simp [addrCode] at hwrite

end Sys2Proof.Machine
end

section
/-! Whole transactions (R140, R141), phase by phase: MAIN's step triggers the phase, ENGINE's completes it. -/

namespace Sys2Proof.Machine

open Sys2Proof.Safety

/-- A run of the machine goes on with the step of the state it is in. -/
theorem run_succ {M : Host.Core} {n : Nat} {s t u : M.State} (h : M.run n s = .next t) (hstep : M.step t = .next u) :
    M.run (n + 1) s = .next u := by
  induction n generalizing s with
  | zero =>
    obtain rfl := Host.Outcome.next.inj h
    rw [Host.Core.run, hstep]
    rfl
  | succ n ih =>
    rw [Host.Core.run] at h ⊢
    split at h
    · exact ih h
    · cases h
    · cases h

theorem takeMove_of_sched {s : State} {m : Move} {ms : List Move} (h : s.sched = m :: ms) :
    takeMove s = (m, { s with sched := ms }) := by
  rw [takeMove, h]

/-- Where an event leaves the bus (R38, R39). -/
def phaseAfter : BusEvent → BusPhase
  | .start | .restart => .started
  | .addr _ _ | .tx _ _ | .rx _ _ => .addressed
  | .stop | .busError => .free

/-- The status code that ENGINE leaves with an event (R174 to R178). -/
def eventCode : BusEvent → StatusName
  | .start => .startSent
  | .restart => .repStartSent
  | .addr b k => addrCode (b.getLsbD 0) k
  | .tx _ k => txCode k
  | .rx _ k => rxCode k
  | .stop => .noInfo
  | .busError => .busError

/-- On a bus that stands at `p`, the completion of the phase `ph` with the answer `a` is the event `e` (R104 to R106). A
stop and a bus error are left out. -/
inductive Emits : BusPhase → Phase → Answer → BusEvent → Prop
  | start : Emits .free .start .done .start
  | restart {p : BusPhase} (hheld : p ≠ .free) : Emits p .start .done .restart
  | addr (b : Byte) (k : Ack) : Emits .started (.tx b) (.acked k) (.addr b k)
  | tx (b : Byte) (k : Ack) : Emits .addressed (.tx b) (.acked k) (.tx b k)
  | rxAck (v : Byte) : Emits .addressed .rxAck (.byte v) (.rx v .ack)
  | rxNack (v : Byte) : Emits .addressed .rxNack (.byte v) (.rx v .nack)

theorem enginePhase_eq_free_iff {s : State} : enginePhase s = .free ↔ s.owned = false := by
  unfold enginePhase
  cases s.owned <;> cases s.afterStart <;> simp

theorem enginePhase_eq_started_iff {s : State} : enginePhase s = .started ↔ s.owned = true ∧ s.afterStart = true := by
  unfold enginePhase
  cases s.owned <;> cases s.afterStart <;> simp

theorem enginePhase_eq_addressed_iff {s : State} :
    enginePhase s = .addressed ↔ s.owned = true ∧ s.afterStart = false := by
  unfold enginePhase
  cases s.owned <;> cases s.afterStart <;> simp

section Emits

variable {s : State} {p : BusPhase} {ph : Phase} {a : Answer} {e : BusEvent}

theorem Emits.ne_stop (he : Emits p ph a e) : ph ≠ .stop := by
  cases he <;> nofun

theorem Emits.admits (he : Emits p ph a e) (c : Config) : admits c (phaseOp ph) a = true := by
  cases he <;> rfl

/-- A phase that ENGINE completes in an event may be triggered where the bus stands so, with nothing in flight (R93). -/
theorem Emits.legal (he : Emits (enginePhase s) ph a e) (hp : s.pend = none) :
    checkTrigger (phaseOp ph) s = none := by
  refine checkTrigger_none_iff.2 (.inl ⟨hp, ?_⟩)
  generalize hq : enginePhase s = q at he
  cases he with
  | start | restart => exact ⟨.inl rfl, nofun⟩
  | addr =>
    obtain ⟨hown, -⟩ := enginePhase_eq_started_iff.1 hq
    exact ⟨.inr hown, nofun⟩
  | tx | rxAck | rxNack =>
    obtain ⟨hown, hafter⟩ := enginePhase_eq_addressed_iff.1 hq
    exact ⟨.inr hown, fun _ => hafter⟩

/-- From `s` to `t` ENGINE completes the operation in flight in the event `e`, and LAST is not captured. -/
structure Completed (e : BusEvent) (s t : State) : Prop where
  trace : t.trace = s.trace ++ [e]
  code : t.code = codeBits s.cfg (eventCode e)
  pend : t.pend = none
  ctrlInt : t.ctrlInt = true
  phase : enginePhase t = phaseAfter e
  startLatched : t.startLatched = s.startLatched
  cap : t.cap = s.cap
  last : t.last = s.last
  received : ∀ v k, e = .rx v k → t.data = v

/-- The completion of a phase is its event, the capture latch not set where it is a receive (R104 to R107). -/
theorem Emits.completed (he : Emits (enginePhase s) ph a e) (hdata : ∀ b, ph = .tx b → s.data = b)
    (hcap : ∀ v, a = .byte v → s.cap = false) : Completed e s (complete (phaseOp ph) a s) := by
  generalize hq : enginePhase s = q at he
  cases he with
  | start =>
    have hown := enginePhase_eq_free_iff.1 hq
    simp only [complete, phaseOp, completeStart, hown]
    exact ⟨rfl, rfl, rfl, rfl, rfl, rfl, rfl, rfl, nofun⟩
  | restart hheld =>
    have hown : s.owned = true := by simpa using mt enginePhase_eq_free_iff.2 (hq ▸ hheld)
    simp only [complete, phaseOp, completeStart, hown]
    exact ⟨rfl, rfl, rfl, rfl, rfl, rfl, rfl, rfl, nofun⟩
  | addr b k =>
    obtain ⟨hown, hafter⟩ := enginePhase_eq_started_iff.1 hq
    obtain rfl := hdata b rfl
    simp only [complete, completeTx, hafter, if_true]
    exact ⟨rfl, rfl, rfl, rfl, enginePhase_eq_addressed_iff.2 ⟨hown, rfl⟩, rfl, rfl, rfl, nofun⟩
  | tx b k =>
    obtain ⟨hown, hafter⟩ := enginePhase_eq_addressed_iff.1 hq
    obtain rfl := hdata b rfl
    simp only [complete, completeTx, hafter, if_neg Bool.false_ne_true]
    exact ⟨rfl, rfl, rfl, rfl, hq, rfl, rfl, rfl, nofun⟩
  | rxAck v | rxNack v =>
    have hcap := hcap v rfl
    simp only [complete, completeRx, capture_eq]
    exact ⟨rfl, rfl, rfl, rfl, hq, rfl, hcap.symm, by simp [hcap], fun _ _ h => by cases h; rfl⟩

end Emits

/-- SEQ's run of MAIN's transaction `cmd` as it waits on its phase `p`, no poll counted and no byte recorded. -/
def txnRun (c : Config) (cmd : BlockCmd) (p : Nat) : Run where
  owner := .main
  cmd := cmd
  prog := program c cmd
  idx := p
  waiting := true
  polls := 0
  byte := Config.unsetSeqByte

/-- What a transaction MAIN issues in `s₀` leaves as it is up to its stop; MAIN's port has lost its word. -/
structure TxnFrame (s₀ s : State) : Prop where
  cfg : s.cfg = s₀.cfg
  fault : s.fault = 0
  startLatched : s.startLatched = false
  cap : s.cap = s₀.cap
  last : s.last = s₀.last
  responses : s.responses = s₀.responses
  mainPort : s.mainPort = s₀.mainPort.tail

/-- A run from `s₀` is in `s` after two steps for each of the `p` phases of MAIN's transaction `cmd` that are complete:
`evs` is on the bus, the last of it `e`, and the moves `ms` are to come. -/
structure TxnAt (s₀ : State) (cmd : BlockCmd) (p : Nat) (evs : List BusEvent) (e : BusEvent) (ms : List Move)
    (s : State) : Prop extends TxnFrame s₀ s where
  run : Sys2Proof.core.run (2 * p) s₀ = .next s
  seq : s.seq = .run (txnRun s₀.cfg cmd p)
  trace : s.trace = s₀.trace ++ evs
  code : s.code = codeBits s₀.cfg (eventCode e)
  pend : s.pend = none
  ctrlInt : s.ctrlInt = true
  phase : enginePhase s = phaseAfter e
  received : ∀ v k, e = .rx v k → s.data = v
  sched : s.sched = ms

section TxnAt

variable {s₀ s u : State} {cmd : BlockCmd} {p : Nat} {evs : List BusEvent} {e e' : BusEvent} {ms : List Move}
  {ph : Phase} {a : Answer}

/-- ENGINE's step after the one that triggers a phase completes the phase. -/
theorem txnAt_of_triggered
    (hrun : Sys2Proof.core.run (2 * p + 1) s₀ = .next (triggered ph (.run (txnRun s₀.cfg cmd (p + 1))) u))
    (hframe : TxnFrame s₀ u) (htrace : u.trace = s₀.trace ++ evs) (hsched : u.sched = .engine a :: ms)
    (he : Emits (enginePhase u) ph a e) (hcap : ∀ v, a = .byte v → s₀.cap = false) :
    ∃ s, TxnAt s₀ cmd (p + 1) (evs ++ [e]) e ms s := by
  let t := { triggered ph (.run (txnRun s₀.cfg cmd (p + 1))) u with sched := ms }
  have hdone : Completed e t (complete (phaseOp ph) a t) :=
    Emits.completed (s := t) he (fun b hb => by subst hb; rfl) fun v hv => hframe.cap.trans (hcap v hv)
  have hmove : EngineMove (triggered ph (.run (txnRun s₀.cfg cmd (p + 1))) u) t a :=
    ⟨hframe.fault, takeMove_of_sched hsched⟩
  exact ⟨complete (phaseOp ph) a t, {
    cfg := (complete_cfg _ _ t).trans hframe.cfg
    fault := (complete_fault _ _ t).trans hframe.fault
    startLatched := hdone.startLatched.trans hframe.startLatched
    cap := hdone.cap.trans hframe.cap
    last := hdone.last.trans hframe.last
    responses := (complete_responses _ _ t).trans hframe.responses
    mainPort := (complete_mainPort _ _ t).trans hframe.mainPort
    run := run_succ hrun (step_of_answer hmove rfl (he.admits _))
    seq := complete_seq _ _ t
    trace := by rw [hdone.trace, ← List.append_assoc, ← htrace]; rfl
    code := hdone.code.trans (congrArg (codeBits · _) hframe.cfg)
    pend := hdone.pend
    ctrlInt := hdone.ctrlInt
    phase := hdone.phase
    received := hdone.received
    sched := complete_sched _ _ t }⟩

/-- The issue step of a transaction on a free bus, and the completion of its start. -/
theorem txnAt_first {i : Instr} {ws : List Word} (h : CanIssue s)
    (hexec : ∀ u, exec i u = issue .blocking (beginCommand cmd) u) (hph : (program s.cfg cmd)[0]? = some .start)
    (hp : s.pend = none) (ho : s.owned = false) (hl : s.startLatched = false) (hport : s.mainPort = encode i :: ws)
    (hsched : s.sched = .context .main :: .engine .done :: ms) : ∃ t, TxnAt s cmd 1 [.start] .start ms t := by
  obtain ⟨h0, hseq, hout⟩ := h
  let u := atPort .main ws { s with sched := .engine .done :: ms }
  have hfree : outstanding .main s = false := by rw [outstanding, hseq]
  have hstep : step s = .next (triggered .start (.run (txnRun s.cfg cmd 1)) u) := by
    rw [stepRunsDecodedCommand s _ .main _ ws i h0 (takeMove_of_sched hsched) hfree hport (decodeEncodeRoundTrip i),
      hexec]
    exact issue_beginCommand_of_idle (s := u) (ph := .start) (op := .start) ⟨h0, hseq, hout⟩ hp hph rfl nofun (.inl rfl)
      nofun
  refine txnAt_of_triggered (p := 0) (u := u) (evs := []) (run_succ rfl hstep) ?_ (List.append_nil _).symm rfl ?_ nofun
  · exact ⟨rfl, h0, hl, rfl, rfl, rfl, by rw [hport]; rfl⟩
  · rw [enginePhase_eq_free_iff.2 (show u.owned = false from ho)]
    exact .start

/-- MAIN's move in a transaction whose phase is complete is a step of its wait. -/
theorem TxnAt.waitStep (h : TxnAt s₀ cmd p evs e (.context .main :: ms) s) :
    WaitStep s { s with sched := ms } (txnRun s₀.cfg cmd p) :=
  ⟨h.fault, takeMove_of_sched h.sched, h.seq, rfl⟩

theorem TxnAt.prog_eq (h : TxnAt s₀ cmd p evs e ms s) : (txnRun s₀.cfg cmd p).prog = program s.cfg cmd := by
  rw [h.cfg]
  rfl

/-- The next phase of a transaction, where the last one passes its check. -/
theorem TxnAt.next (h : TxnAt s₀ cmd p evs e (.context .main :: .engine a :: ms) s) (hcmd : isTxn cmd = true)
    (hrec : recordsByte (txnRun s₀.cfg cmd p) = false)
    (hpass : s₀.cfg.checkMode = .inert ∨ s₀.cfg.wf = true ∧ expected cmd p = some (eventCode e))
    (hph : (program s₀.cfg cmd)[p]? = some ph) (he : Emits (phaseAfter e) ph a e')
    (hcap : ∀ v, a = .byte v → s₀.cap = false) : ∃ t, TxnAt s₀ cmd (p + 1) (evs ++ [e']) e' ms t := by
  have hpass : PhasePasses (txnRun s₀.cfg cmd p) s := by
    refine hpass.imp (fun hinert => h.cfg ▸ hinert) fun ⟨hwf, hexp⟩ => .inr ⟨_, hexp, ?_⟩
    exact statusRaw_of_code (h.cfg ▸ hwf) (h.cfg ▸ h.code)
  have he : Emits (enginePhase s) ph a e' := h.phase ▸ he
  have hstep := step_of_next_phase h.waitStep h.ctrlInt hcmd hrec hpass hph he.ne_stop h.pend (he.legal h.pend)
  exact txnAt_of_triggered (u := { s with sched := .engine a :: ms }) (run_succ h.run hstep)
    ⟨h.cfg, h.fault, h.startLatched, h.cap, h.last, h.responses, h.mainPort⟩ h.trace rfl he hcap

end TxnAt

/-- A stop that MAIN's step triggers is completed by ENGINE's: the bus is free. -/
theorem run_of_stop {s₀ s t : State} {n : Nat} {ms : List Move} (hrun : Sys2Proof.core.run n s₀ = .next s)
    (hstep : step s = .next t) (h0 : t.fault = 0) (hp : t.pend = some .stop) (hsched : t.sched = .engine .done :: ms) :
    Sys2Proof.core.run (n + 2) s₀ = .next (completeStop { t with sched := ms }) :=
  run_succ (run_succ hrun hstep) (step_of_answer ⟨h0, takeMove_of_sched hsched⟩ hp rfl)

/-- The four phases of a WRITE_TXN before its stop: no check fails under INERT, or with the codes of R126 under LIVE. -/
theorem writeTxn_reaches_stop {s : State} {dev reg data : Byte} {a₂ a₃ a₄ : Ack} {ws : List Word} {ms : List Move}
    (h : CanIssue s) (hp : s.pend = none) (ho : s.owned = false) (hl : s.startLatched = false)
    (hpass : s.cfg.checkMode = .inert ∨ s.cfg.wf = true ∧ (addrByte s.cfg.addrMode dev .write).getLsbD 0 = false ∧
      a₂ = .ack ∧ a₃ = .ack)
    (hport : s.mainPort = encode (.writeTxn dev reg data) :: ws)
    (hsched : s.sched = [.context .main, .engine .done, .context .main, .engine (.acked a₂), .context .main,
      .engine (.acked a₃), .context .main, .engine (.acked a₄)] ++ ms) :
    ∃ t, TxnAt s (.writeTxn dev reg data) 4
      [.start, .addr (addrByte s.cfg.addrMode dev .write) a₂, .tx reg a₃, .tx data a₄] (.tx data a₄) ms t := by
  obtain ⟨s₁, h₁⟩ := txnAt_first h (exec_writeTxn dev reg data) rfl hp ho hl hport hsched
  obtain ⟨s₂, h₂⟩ := h₁.next rfl rfl (hpass.imp_right fun ⟨hwf, _⟩ => ⟨hwf, rfl⟩) rfl (.addr _ a₂) nofun
  obtain ⟨s₃, h₃⟩ := h₂.next rfl rfl
    (hpass.imp_right fun ⟨hwf, hdir, hack, _⟩ => ⟨hwf, by rw [eventCode, hdir, hack]; rfl⟩) rfl (.tx _ a₃) nofun
  exact h₃.next rfl rfl (hpass.imp_right fun ⟨hwf, _, _, hack⟩ => ⟨hwf, by rw [hack]; rfl⟩) rfl (.tx _ a₄) nofun

/-- Settles O57: the four phases before the stop (`writeTxn_reaches_stop`), the stop, with which WRITE_TXN retires
(`writeTxnRetires`), and its completion (`run_of_stop`). -/
theorem writeTxnBusOrder : Obligations.WriteTxnBusOrder := by
  intro s dev reg data a₂ a₃ a₄ ws ms h hp ho hl hinert hport hsched
  obtain ⟨t, ht⟩ := writeTxn_reaches_stop h hp ho hl (.inl hinert) hport hsched
  have hown : t.owned = true := (enginePhase_eq_addressed_iff.1 ht.phase).1
  have hretire := writeTxnRetires t _ _ dev reg data ht.waitStep ht.ctrlInt rfl ht.prog_eq rfl ht.pend hown
  refine ⟨_, run_of_stop ht.run (hretire.2 (ht.cfg ▸ hinert)) ht.fault rfl rfl, ?_, rfl, ?_, rfl, ht.fault, ht.last, rfl,
    ht.mainPort.trans (congrArg List.tail hport)⟩
  · exact (congrArg (· ++ _) ht.trace).trans (List.append_assoc _ _ _)
  · exact if_neg (by simp [ht.startLatched])

/-- Settles O58, as O57, where the codes are those WRITE_TXN expects (`statusRaw_of_code`). -/
theorem liveWriteTxnSucceeds : Obligations.LiveWriteTxnSucceeds := by
  intro s dev reg data ws ms h hp ho hl hwf hlive hdir hport hsched
  obtain ⟨t, ht⟩ := writeTxn_reaches_stop h hp ho hl (.inr ⟨hwf, hdir, rfl, rfl⟩) hport hsched
  have hown : t.owned = true := (enginePhase_eq_addressed_iff.1 ht.phase).1
  have hcode : statusRaw t &&& 0xF8 = t.cfg.statusCodes.dataTxAck :=
    statusRaw_of_code (n := .dataTxAck) (ht.cfg ▸ hwf) (ht.cfg ▸ ht.code)
  have hretire := writeTxnRetires t _ _ dev reg data ht.waitStep ht.ctrlInt rfl ht.prog_eq rfl ht.pend hown
  refine ⟨_, run_of_stop ht.run (hretire.1 (ht.cfg ▸ hlive) hcode) ht.fault rfl rfl, ?_, rfl,
    congrArg (· ++ _) ht.responses⟩
  exact (congrArg (· ++ _) ht.trace).trans (List.append_assoc _ _ _)

/-- Settles O59: the eight phases before the stop, phase by phase (`TxnAt.next`), the stop, with which READ_TXN retires
(`readTxnRecordsAndRetires`), and its completion (`run_of_stop`). -/
theorem readTxnBusOrder : Obligations.ReadTxnBusOrder := by
  intro s dev reg a₂ a₃ a₅ b₁ b₂ b₃ ws ms h hp ho hl hcap hinert hport hsched
  obtain ⟨s₁, h₁⟩ := txnAt_first h (exec_readTxn dev reg) rfl hp ho hl hport hsched
  obtain ⟨s₂, h₂⟩ := h₁.next rfl rfl (.inl hinert) rfl (.addr _ a₂) nofun
  obtain ⟨s₃, h₃⟩ := h₂.next rfl rfl (.inl hinert) rfl (.tx _ a₃) nofun
  obtain ⟨s₄, h₄⟩ := h₃.next rfl rfl (.inl hinert) rfl (.restart nofun) nofun
  obtain ⟨s₅, h₅⟩ := h₄.next rfl rfl (.inl hinert) rfl (.addr _ a₅) nofun
  obtain ⟨s₆, h₆⟩ := h₅.next rfl rfl (.inl hinert) rfl (.rxAck b₁) fun _ _ => hcap
  obtain ⟨s₇, h₇⟩ := h₆.next rfl rfl (.inl hinert) rfl (.rxAck b₂) fun _ _ => hcap
  obtain ⟨t, ht⟩ := h₇.next rfl rfl (.inl hinert) rfl (.rxNack b₃) fun _ _ => hcap
  have hown : t.owned = true := (enginePhase_eq_addressed_iff.1 ht.phase).1
  have hdata : t.data = b₃ := ht.received _ _ rfl
  have hretire := readTxnRecordsAndRetires t _ _ dev reg ht.waitStep ht.ctrlInt rfl ht.prog_eq rfl ht.pend hown
    (.inl (ht.cfg ▸ hinert))
  rw [hdata] at hretire
  refine ⟨_, run_of_stop ht.run hretire ht.fault rfl rfl, ?_, rfl, rfl, congrArg (· ++ _) ht.responses, ht.fault, rfl,
    rfl⟩
  exact (congrArg (· ++ _) ht.trace).trans (List.append_assoc _ _ _)

end Sys2Proof.Machine
end

section
/-! One event of the event-driven machine (R151 to R165), by what STEP and the bus are. -/

namespace Sys2Proof.Machine

open Sys2Proof.Safety

/-- Settles O36: the default branch of the event's rule reads nothing but STEP. -/
theorem fsmEventDefaultBranch : Obligations.FsmEventDefaultBranch := by
  intro s h hgt
  rw [exec_fsmEvent_of_canEvent h, eventRule, if_neg (Nat.not_le.2 hgt), conclude_ok]
  rfl

/-- A legal trigger of a phase with nothing in flight, SEQ left as it is (R92, R130). -/
theorem launch_loadPhase_of_idle {ph : Phase} {s : State} (hp : s.pend = none) :
    launch (phaseOp ph) (loadPhase ph s) = triggered ph s.seq s :=
  launch_of_idle (s := loadPhase ph s) hp

/-- An event whose trigger is legal, with nothing in flight, puts the phase of its state in flight (R151, R152). -/
theorem exec_fsmEvent_of_idle {s : State} {v : Byte} {ph : Phase} (h : CanEvent s) (hp : s.pend = none)
    (hv : s.stepCtr = v) (hph : eventPhase s.cfg v.toNat = some ph) (hc : checkTrigger (phaseOp ph) s = none) :
    exec .fsmEvent s = .next (finishEvent (v + 1) (armed v.toNat (triggered ph s.seq s))) := by
  subst hv
  rw [exec_fsmEvent_of_legal h hph hc, launch_loadPhase_of_idle hp]

theorem triggered_tx (b : Byte) (q : Seq) (s : State) :
    triggered (.tx b) q s = { s with
      ctrlInt := false, ctrlEa := true, ctrlSta := false, ctrlEn := true, data := b, pend := some .tx, seq := q } := by
  rw [triggered, phaseOp]
  rfl

/-- Settles O35: in each state the phase of the table is legal where the statement has it, and is what the event puts in
flight (`exec_fsmEvent_of_idle`). -/
theorem fsmEventActsByTable : Obligations.FsmEventActsByTable := by
  intro s h hp fired
  have hlegal : ∀ op, op = .start ∨ s.owned = true → (op = .rxAck ∨ op = .rxNack → s.afterStart = false) →
      checkTrigger op s = none := fun _ hheld hrx => checkTrigger_none_iff.2 (.inl ⟨hp, hheld, hrx⟩)
  refine ⟨fun hv => ?_, fun hv ho => ?_, fun hv ho => ?_, fun hv => ?_, fun hv ho => ?_, fun hv ho ha => ?_,
    fun hv ho ha => ?_, fun hv ho ha => ?_, fun hv ho => ?_⟩
  · exact exec_fsmEvent_of_idle (ph := .start) h hp hv rfl (hlegal .start (.inl rfl) nofun)
  · rw [exec_fsmEvent_of_idle h hp hv rfl (hlegal .tx (.inr ho) nofun), triggered_tx]
    rfl
  · rw [exec_fsmEvent_of_idle h hp hv rfl (hlegal .tx (.inr ho) nofun), triggered_tx]
    rfl
  · exact exec_fsmEvent_of_idle (ph := .start) h hp hv rfl (hlegal .start (.inl rfl) nofun)
  · rw [exec_fsmEvent_of_idle h hp hv rfl (hlegal .tx (.inr ho) nofun), triggered_tx]
    rfl
  · exact exec_fsmEvent_of_idle (ph := .rxAck) h hp hv rfl (hlegal .rxAck (.inr ho) fun _ => ha)
  · exact exec_fsmEvent_of_idle (ph := .rxAck) h hp hv rfl (hlegal .rxAck (.inr ho) fun _ => ha)
  · exact exec_fsmEvent_of_idle (ph := .rxNack) h hp hv rfl (hlegal .rxNack (.inr ho) fun _ => ha)
  · exact exec_fsmEvent_of_idle (ph := .stop) h hp hv rfl (hlegal .stop (.inr ho) nofun)

/-- The states 0 to 8 of the table: those that trigger a start, a byte sent or a stop, and a receive (R152). -/
theorem event_state_cases {v : Byte} (hle : v.toNat ≤ 8) :
    v ∈ [0#8, 3#8] ∨ v ∈ [1#8, 2#8, 4#8, 8#8] ∨ v ∈ [5#8, 6#8, 7#8] := by
  simp only [List.mem_cons, List.not_mem_nil, or_false]
  bv_omega

theorem eventPhase_of_send_state {v : Byte} (c : Config) (hv : v ∈ [1#8, 2#8, 4#8, 8#8]) :
    ∃ ph, eventPhase c v.toNat = some ph ∧ (phaseOp ph = .tx ∨ phaseOp ph = .stop) := by
  simp only [List.mem_cons, List.not_mem_nil, or_false] at hv
  rcases hv with rfl | rfl | rfl | rfl
  · exact ⟨_, rfl, .inl rfl⟩
  · exact ⟨_, rfl, .inl rfl⟩
  · exact ⟨_, rfl, .inl rfl⟩
  · exact ⟨_, rfl, .inr rfl⟩

/-- A paced event in a state 1 to 8 finds nothing in flight: INT is 0 while an operation is (R23, R164). -/
theorem pend_of_paced {s : State} (hinv : EngineInv s) (hpaced : PacedEvent s) (hne : s.stepCtr ≠ 0)
    (hle : s.stepCtr.toNat ≤ 8) : s.pend = none := by
  have hint : s.ctrlInt = true := hpaced.2 ⟨by bv_omega, hle⟩
  by_contra hbusy
  simp [hinv.intClear hbusy] at hint

/-- The trigger of a paced event in a state 0 to 8 is legal on the bus its predecessors leave (R165). -/
theorem legal_of_paced {s : State} (hinv : EngineInv s) (hpaced : PacedEvent s) (hle : s.stepCtr.toNat ≤ 8)
    (hheld : s.stepCtr ∈ [1#8, 2#8, 4#8, 5#8, 6#8, 7#8, 8#8] → s.owned = true)
    (haddr : s.stepCtr ∈ [5#8, 6#8, 7#8] → s.afterStart = false)
    (hzero : s.stepCtr = 0 → s.pend = none ∨ (s.pend = some .stop ∧ s.startLatched = false)) :
    ∃ ph, eventPhase s.cfg s.stepCtr.toNat = some ph ∧ checkTrigger (phaseOp ph) s = none := by
  have hidle : s.stepCtr ≠ 0 → s.pend = none := fun hne => pend_of_paced hinv hpaced hne hle
  obtain hv | hv | hv := event_state_cases hle
  · have hbus : s.pend = none ∨ (s.pend = some .stop ∧ s.startLatched = false) :=
      (Decidable.em (s.stepCtr = 0)).elim hzero fun hne => .inl (hidle hne)
    refine ⟨.start, eventPhase_of_start_state s.cfg hv, checkTrigger_none_iff.2 ?_⟩
    exact hbus.imp (fun hp => ⟨hp, .inl rfl, nofun⟩) fun hstop => ⟨rfl, hstop⟩
  · have hsub : [1#8, 2#8, 4#8, 8#8] ⊆ [1#8, 2#8, 4#8, 5#8, 6#8, 7#8, 8#8] := by decide
    have hp : s.pend = none := hidle fun h0 => by simp [h0] at hv
    obtain ⟨ph, hph, hop⟩ := eventPhase_of_send_state s.cfg hv
    refine ⟨ph, hph, checkTrigger_none_iff.2 (.inl ⟨hp, .inr (hheld (hsub hv)), fun hrx => ?_⟩)⟩
    rcases hop with hop | hop <;> simp [hop] at hrx
  · have hsub : [5#8, 6#8, 7#8] ⊆ [1#8, 2#8, 4#8, 5#8, 6#8, 7#8, 8#8] := by decide
    have hp : s.pend = none := hidle fun h0 => by simp [h0] at hv
    obtain ⟨ph, hph, -⟩ := eventPhase_of_receive_state s.cfg hv
    exact ⟨ph, hph, checkTrigger_none_iff.2 (.inl ⟨hp, .inr (hheld (hsub hv)), fun _ => haddr hv⟩)⟩

/-- Settles O37: in the states 0 to 8 the trigger is legal (`legal_of_paced`), and the default branch makes none. -/
theorem pacedEventDoesNotFault : Obligations.PacedEventDoesNotFault := by
  intro s h0 hinv hpaced hheld haddr hzero
  have hevent : CanEvent s := ⟨h0, hpaced.1⟩
  split
  · next hle =>
    obtain ⟨ph, hph, hc⟩ := legal_of_paced hinv hpaced hle hheld haddr hzero
    exact ⟨_, exec_fsmEvent_of_legal hevent hph hc, h0, rfl⟩
  · next hgt => exact ⟨_, fsmEventDefaultBranch s hevent (Nat.lt_of_not_le hgt), h0, rfl⟩

end Sys2Proof.Machine
end

section
/-! Nine events (R166), one by one: HANDLER's step puts a phase in flight, ENGINE's completes it. -/

namespace Sys2Proof.Machine

open Sys2Proof.Safety

/-- From `s` to `t` ENGINE completes the operation in flight in the event `e`, and leaves no start latched and no
capture armed. -/
structure EventDone (e : BusEvent) (s t : State) : Prop where
  trace : t.trace = s.trace ++ [e]
  pend : t.pend = none
  phase : enginePhase t = phaseAfter e
  startLatched : t.startLatched = false
  cap : t.cap = false

theorem Completed.eventDone {e : BusEvent} {s t : State} (h : Completed e s t) (hl : s.startLatched = false)
    (hcap : s.cap = false) : EventDone e s t :=
  ⟨h.trace, h.pend, h.phase, h.startLatched.trans hl, h.cap.trans hcap⟩

/-- The completion of a last receive, whether or not it captures the byte (R106, R107). -/
theorem rxNack_eventDone {s : State} (v : Byte) (hphase : enginePhase s = .addressed) (hl : s.startLatched = false) :
    EventDone (.rx v .nack) s (complete .rxNack (.byte v) s) where
  trace := by simp [complete, completeRx]
  pend := rfl
  phase := by rw [phaseAfter, ← hphase]; simp [complete, enginePhase]
  startLatched := by simpa [complete] using hl
  cap := completeRx_cap .nack v s

theorem rxNack_last_of_cap {s : State} (v : Byte) (hcap : s.cap = true) :
    (complete .rxNack (.byte v) s).last = v := by
  simp [complete, completeRx, capture, hcap]

/-- The completion of a stop with no start latched (R108). -/
theorem stop_eventDone {s : State} (hl : s.startLatched = false) (hcap : s.cap = false) :
    EventDone .stop s (complete .stop .done s) where
  trace := rfl
  pend := if_neg (by simp [hl])
  phase := rfl
  startLatched := rfl
  cap := hcap

/-- A run from `s₀` is in `s` after two steps for each of HANDLER's `n` events: `evs` is on the bus, which stands at
`p`, HANDLER has still to issue `ws`, and the moves `ms` are to come. -/
structure EventsAt (s₀ : State) (n : Nat) (evs : List BusEvent) (p : BusPhase) (ws : List Word) (ms : List Move)
    (s : State) : Prop where
  run : Sys2Proof.core.run (2 * n) s₀ = .next s
  canEvent : CanEvent s
  cfg : s.cfg = s₀.cfg
  result : s.result = s₀.result
  stepCtr : s.stepCtr = BitVec.ofNat 8 n
  trace : s.trace = s₀.trace ++ evs
  pend : s.pend = none
  phase : enginePhase s = p
  startLatched : s.startLatched = false
  cap : s.cap = false
  handlerPort : s.handlerPort = ws
  sched : s.sched = ms

/-- The block as HANDLER's event in state `n` leaves it, the phase `ph` in flight. -/
def eventFired (n : Nat) (ph : Phase) (ws : List Word) (ms : List Move) (s : State) : State :=
  { triggered ph s.seq s with
    stepCtr := BitVec.ofNat 8 n + 1
    cap := if n = 7 then true else s.cap
    issuer := .handler
    responses := s.responses ++ [(.handler, .nothing)]
    handlerPort := ws
    sched := ms }

theorem finishEvent_armed_triggered (n : Nat) (ph : Phase) (ws : List Word) (ms : List Move) (s : State) :
    finishEvent (BitVec.ofNat 8 n + 1) (armed n (triggered ph s.seq (atPort .handler ws { s with sched := ms }))) =
      eventFired n ph ws ms s := by
  simp only [finishEvent, respond, armed, triggered, atPort, setPort, loadPhase, eventFired]

section EventsAt

variable {s₀ s : State} {n : Nat} {evs : List BusEvent} {p : BusPhase} {ws : List Word} {ms : List Move} {ph : Phase}
  {a : Answer} {e : BusEvent}

/-- HANDLER's move issues the next event. -/
theorem EventsAt.step_event (h : EventsAt s₀ n evs p (encode .fsmEvent :: ws) (.context .handler :: ms) s)
    (hph : eventPhase s₀.cfg n = some ph) (hc : checkTrigger (phaseOp ph) s = none) :
    step s = .next (eventFired n ph ws ms s) := by
  have hfree : outstanding .handler s = false := by rw [outstanding, h.canEvent.2]
  have hn : (BitVec.ofNat 8 n).toNat = n := Nat.mod_eq_of_lt (lt_of_le_of_lt (le_of_eventPhase hph) (by decide))
  let u := atPort .handler ws { s with sched := ms }
  have hphu : eventPhase u.cfg (BitVec.ofNat 8 n).toNat = some ph := by
    rw [hn, ← hph, ← h.cfg]
    rfl
  rw [stepRunsDecodedCommand s _ .handler _ ws .fsmEvent h.canEvent.1 (takeMove_of_sched h.sched) hfree h.handlerPort
    (decodeEncodeRoundTrip .fsmEvent)]
  have hexec : exec .fsmEvent u = _ := exec_fsmEvent_of_idle h.canEvent h.pend h.stepCtr hphu hc
  rw [hexec, hn, ← finishEvent_armed_triggered]
  rfl

/-- An event, and the completion of the operation it put in flight. -/
theorem EventsAt.succ_of_eventDone
    (h : EventsAt s₀ n evs p (encode .fsmEvent :: ws) (.context .handler :: .engine a :: ms) s)
    (hph : eventPhase s₀.cfg n = some ph) (hc : checkTrigger (phaseOp ph) s = none)
    (hadm : admits s.cfg (phaseOp ph) a = true)
    (hdone : EventDone e (eventFired n ph ws ms s) (complete (phaseOp ph) a (eventFired n ph ws ms s))) :
    EventsAt s₀ (n + 1) (evs ++ [e]) (phaseAfter e) ws ms (complete (phaseOp ph) a (eventFired n ph ws ms s)) where
  run :=
    have hanswer := step_of_answer (u := eventFired n ph ws ms s) (s := eventFired n ph ws (.engine a :: ms) s)
      ⟨h.canEvent.1, takeMove_of_sched rfl⟩ rfl hadm
    run_succ (run_succ h.run (h.step_event hph hc)) hanswer
  canEvent := ⟨(complete_fault ..).trans h.canEvent.1, (complete_seq ..).trans h.canEvent.2⟩
  cfg := (complete_cfg ..).trans h.cfg
  result := (complete_result ..).trans h.result
  stepCtr := (complete_stepCtr ..).trans (BitVec.ofNat_add n 1).symm
  trace := by rw [hdone.trace, ← List.append_assoc, ← h.trace]; rfl
  pend := hdone.pend
  phase := hdone.phase
  startLatched := hdone.startLatched
  cap := hdone.cap
  handlerPort := complete_handlerPort ..
  sched := complete_sched ..

/-- An event in a state 0 to 6, and the completion of its phase. -/
theorem EventsAt.next (h : EventsAt s₀ n evs p (encode .fsmEvent :: ws) (.context .handler :: .engine a :: ms) s)
    (hph : eventPhase s₀.cfg n = some ph) (hn : n ≠ 7) (he : Emits p ph a e) :
    ∃ t, EventsAt s₀ (n + 1) (evs ++ [e]) (phaseAfter e) ws ms t := by
  obtain rfl := h.phase
  have hcap : (eventFired n ph ws ms s).cap = false := (if_neg hn).trans h.cap
  have hdone : Completed e (eventFired n ph ws ms s) _ :=
    Emits.completed he (fun b hb => by subst hb; rfl) fun _ _ => hcap
  exact ⟨_, h.succ_of_eventDone hph (he.legal h.pend) (he.admits _) (hdone.eventDone h.startLatched hcap)⟩

/-- The event in state 7, and the completion of its receive, which captures the byte (R107, R160). -/
theorem EventsAt.capture {v : Byte}
    (h : EventsAt s₀ 7 evs .addressed (encode .fsmEvent :: ws) (.context .handler :: .engine (.byte v) :: ms) s) :
    ∃ t, EventsAt s₀ 8 (evs ++ [.rx v .nack]) .addressed ws ms t ∧ t.last = v := by
  have he : Emits (enginePhase s) .rxNack (.byte v) (.rx v .nack) := h.phase ▸ Emits.rxNack v
  exact ⟨_, h.succ_of_eventDone rfl (he.legal h.pend) (he.admits _) (rxNack_eventDone v h.phase h.startLatched),
    rxNack_last_of_cap v rfl⟩

/-- The event in state 8, and the completion of its stop, which keeps LAST (R108, R161). -/
theorem EventsAt.stop (h : EventsAt s₀ 8 evs p (encode .fsmEvent :: ws) (.context .handler :: .engine .done :: ms) s)
    (hheld : s.owned = true) : ∃ t, EventsAt s₀ 9 (evs ++ [.stop]) .free ws ms t ∧ t.last = s.last := by
  have hc : checkTrigger .stop s = none := checkTrigger_none_iff.2 (.inl ⟨h.pend, .inr hheld, nofun⟩)
  exact ⟨_, h.succ_of_eventDone (ph := .stop) rfl hc rfl (stop_eventDone h.startLatched h.cap), rfl⟩

end EventsAt

/-- Settles O60: the seven events before the third receive (`EventsAt.next`), that receive, which captures its byte
(`EventsAt.capture`), and the stop (`EventsAt.stop`). -/
theorem nineEventsMirrorRead : Obligations.NineEventsMirrorRead := by
  intro s a₁ a₂ a₄ b₁ b₂ b₃ ws ms h hstep hp ho hl hcap hport hsched
  have h₀ : EventsAt s 0 [] .free _ _ s :=
    ⟨rfl, h, rfl, rfl, hstep, (List.append_nil _).symm, hp, enginePhase_eq_free_iff.2 ho, hl, hcap, hport, hsched⟩
  obtain ⟨s₁, h₁⟩ := h₀.next rfl nofun .start
  obtain ⟨s₂, h₂⟩ := h₁.next rfl nofun (.addr _ a₁)
  obtain ⟨s₃, h₃⟩ := h₂.next rfl nofun (.tx _ a₂)
  obtain ⟨s₄, h₄⟩ := h₃.next rfl nofun (.restart nofun)
  obtain ⟨s₅, h₅⟩ := h₄.next rfl nofun (.addr _ a₄)
  obtain ⟨s₆, h₆⟩ := h₅.next rfl nofun (.rxAck b₁)
  obtain ⟨s₇, h₇⟩ := h₆.next rfl nofun (.rxAck b₂)
  obtain ⟨s₈, h₈, hlast⟩ := h₇.capture
  obtain ⟨t, ht, hkept⟩ := h₈.stop (enginePhase_eq_addressed_iff.1 h₈.phase).1
  exact ⟨t, ht.run, ht.trace, ht.stepCtr, hkept.trans hlast, ht.canEvent.1, enginePhase_eq_free_iff.1 ht.phase, ht.cap,
    ht.result⟩

end Sys2Proof.Machine
end

section
/-! The status decoder: a value's name, the kind of a failure, and the check of a phase (R172, R180 to R182). -/

namespace Sys2Proof.Machine

/-- A value's name is the one name with that value (R80, R172). -/
theorem classify_eq_some_iff {t : StatusCodes} (h : t.wf = true) {v : Byte} {n : StatusName} :
    classify t v = some n ↔ t.value n = v := by
  have hvalue {m : StatusName} (hm : classify t v = some m) : t.value m = v := by
    simpa using List.find?_some hm
  refine ⟨hvalue, fun hn => ?_⟩
  have hfound : (classify t v).isSome := List.find?_isSome.2 ⟨n, by cases n <;> decide, beq_iff_eq.2 hn⟩
  obtain ⟨m, hm⟩ := Option.isSome_iff_exists.1 hfound
  rw [hm, value_injective h ((hvalue hm).trans hn.symm)]

/-- A failure is FAIL_NACK exactly where the value is one of the three NACK codes (R182). -/
theorem failKind_eq_ite {t : StatusCodes} (h : t.wf = true) (v : Byte) :
    failKind t v =
      if v = t.slaWNack ∨ v = t.slaRNack ∨ v = t.dataTxNack then .failNack else .failUnexpected := by
  have hname (n : StatusName) : v = t.value n ↔ classify t v = some n := by
    rw [classify_eq_some_iff h, eq_comm]
  change _ = if v = t.value .slaWNack ∨ v = t.value .slaRNack ∨ v = t.value .dataTxNack then _ else _
  simp only [hname, failKind]
  cases classify t v with
  | none => simp
  | some n => cases n <;> simp

/-- The checks of WRITE_TXN's phases, by the table of R126 (R180, R181). -/
theorem check_writeTxn (t : StatusCodes) (d g x v : Byte) (p : Nat) :
    check t (.writeTxn d g x) p v =
      if p = 1 then v == t.startSent
      else if p = 2 then v == t.slaWAck
      else if p = 3 then v == t.dataTxAck
      else if p = 4 then v == t.dataTxAck
      else true := by
  match p with
  | 0 | 1 | 2 | 3 | 4 | _ + 5 => rfl

/-- The checks of READ_TXN's phases, by the table of R127 (R180, R181). -/
theorem check_readTxn (t : StatusCodes) (d g v : Byte) (p : Nat) :
    check t (.readTxn d g) p v =
      if p = 1 then v == t.startSent
      else if p = 2 then v == t.slaWAck
      else if p = 3 then v == t.dataTxAck
      else if p = 4 then v == t.repStartSent
      else if p = 5 then v == t.slaRAck
      else if p = 6 then v == t.dataRxAck
      else if p = 7 then v == t.dataRxAck
      else if p = 8 then v == t.dataRxNack
      else true := by
  match p with
  | 0 | 1 | 2 | 3 | 4 | 5 | 6 | 7 | 8 | _ + 9 => rfl

/-- Settles O44: names by `classify_eq_some_iff`, failures by `failKind_eq_ite`, checks by `check_writeTxn` and
`check_readTxn`; the two lists of expected codes are `expected` evaluated at each phase. -/
theorem failureKindByCode : Obligations.FailureKindByCode := fun t h =>
  ⟨fun _ => (classify_eq_some_iff h).2 rfl, failKind_eq_ite h, check_writeTxn t, check_readTxn t,
    fun _ _ _ => rfl, fun _ _ => rfl⟩

end Sys2Proof.Machine
end

section
/-! Exceptions (60_exceptions.md): what a step that raises a fault writes, a block that is faulted, and the faults of the
issue step that come before a command's rule (R187 to R191). -/

namespace Sys2Proof.Machine

open Sys2Proof.Safety

/-- In a block not faulted, the one effect that leaves FAULT nonzero is raising a fault (R187). -/
theorem effect_eq_raiseFault {s t : State} (h0 : s.fault = 0) (e : Effect s t) (ht : t.fault ≠ 0) :
    ∃ k, t = raiseFault k s := by
  cases e with
  | fault k => exact ⟨k, rfl⟩
  | timeOut r => exact absurd ((timeOut_fault r s).trans h0) ht
  | retireTxn r => exact absurd ((retireAtStop_fault (nextPhase r s) (launch .stop (recordLast r s))).trans h0) ht
  | _ => exact absurd h0 ht

theorem fault_of_sameBlock {s u : State} (h : SameBlock s u) : u.fault = s.fault := by
  rw [h]

/-- States of one block stay so when FAULT gets the same value in both. -/
theorem sameBlock_raiseFault {s u : State} (h : SameBlock s u) (k : FaultReason) :
    SameBlock { s with fault := faultCode k } (raiseFault k u) := by
  rw [h]
  rfl

/-- A step that leaves FAULT nonzero raises a fault in the block it began in, and makes no other change of it (R189). -/
theorem step_eq_raiseFault {s t : State} (h : step s = .next t) (ht : t.fault ≠ 0) :
    ∃ k u, SameBlock s u ∧ t = raiseFault k u := by
  obtain ⟨h0, ⟨c, u, -, hu, heff⟩ | ⟨a, u, -, hu, heng⟩⟩ := step_cases h
  all_goals have hu0 : u.fault = 0 := (fault_of_sameBlock hu).trans h0
  · obtain ⟨k, hk⟩ := effect_eq_raiseFault hu0 heff ht
    exact ⟨k, u, hu, hk⟩
  · obtain rfl | ⟨op, -, -, rfl⟩ := heng
    · exact absurd hu0 ht
    · exact absurd ((complete_fault op a u).trans hu0) ht

/-- Settles O13: an issue step (`effect_eq_raiseFault`) or a step of any agent (`step_eq_raiseFault`) that leaves FAULT
nonzero is a fault raised, with a code in the range of `faultCode_range`. -/
theorem faultingStepChangesFaultAlone : Obligations.FaultingStepChangesFaultAlone := by
  refine ⟨fun i s t h ht => ?_, fun s t h ht => ?_⟩
  · obtain ⟨h0, heff⟩ := exec_effect h
    obtain ⟨k, rfl⟩ := effect_eq_raiseFault h0 heff ht
    exact ⟨rfl, (faultCode_range k).2⟩
  · obtain ⟨k, u, hu, rfl⟩ := step_eq_raiseFault h ht
    exact ⟨sameBlock_raiseFault hu k, (faultCode_range k).2⟩

/-- The path use of each command (R91). -/
def pathUse : Instr → PathUse
  | .getStatus | .readReg _ => .pureRead
  | .fsmEvent => .event
  | .start | .stop | .writeByte _ | .readAck | .readNack | .writeTxn _ _ _ | .readTxn _ _ => .blocking

/-- Every command is issued by the one issue step, with its path use and a rule of its own (R91). -/
theorem exec_eq_issue (i : Instr) : ∃ rule, ∀ s, exec i s = issue (pathUse i) rule s := by
  cases i with
  | start => exact ⟨_, exec_start⟩
  | stop => exact ⟨_, exec_stop⟩
  | writeByte c => exact ⟨_, exec_writeByte c⟩
  | readAck => exact ⟨_, exec_readAck⟩
  | readNack => exact ⟨_, exec_readNack⟩
  | getStatus => exact ⟨_, exec_getStatus⟩
  | readReg off => exact ⟨_, exec_readReg off⟩
  | writeTxn dev reg data => exact ⟨_, exec_writeTxn dev reg data⟩
  | readTxn dev reg => exact ⟨_, exec_readTxn dev reg⟩
  | fsmEvent => exact ⟨_, exec_fsmEvent⟩

theorem pathUse_eq_pureRead_iff {i : Instr} : pathUse i = .pureRead ↔ isPureRead i = true := by
  cases i <;> simp [pathUse, isPureRead]

theorem pathUse_eq_blocking_iff {i : Instr} : pathUse i = .blocking ↔ isBlockingPath i = true := by
  cases i <;> simp [pathUse, isBlockingPath]

/-- While a blocking command runs only a pure read passes the path checks (R91). -/
theorem pathCheck_of_run {u : PathUse} {s : State} {r : Run} (hrun : s.seq = .run r) (hu : u ≠ .pureRead) :
    pathCheck u s = some .concurrentPaths := by
  cases u with
  | pureRead => exact absurd rfl hu
  | event | blocking => simp [pathCheck, hrun]

/-- Inside a transaction of the event-driven machine no blocking-path command passes the path checks, whatever SEQ holds
(R91). -/
theorem pathCheck_blocking_of_eventInside {s : State} (h : eventInside s = true) :
    pathCheck .blocking s = some .concurrentPaths := by
  simp [pathCheck, h]

/-- A command that fails its path check raises the check's fault (R91, R191). -/
theorem exec_of_pathCheck {i : Instr} {s : State} {k : FaultReason} (h0 : s.fault = 0)
    (hp : pathCheck (pathUse i) s = some k) : exec i s = .next (raiseFault k s) := by
  obtain ⟨rule, hrule⟩ := exec_eq_issue i
  rw [hrule, issue_eq_raise h0 hp]

/-- A pure read only responds, whichever path is busy (R101, R102). -/
theorem exec_of_isPureRead {i : Instr} {s : State} (h0 : s.fault = 0) (hi : isPureRead i = true) :
    ∃ x, exec i s = .next (respond s.issuer x s) := by
  cases i with
  | getStatus => exact ⟨_, (exec_getStatus s).trans (issue_eq_conclude h0 rfl)⟩
  | readReg off => exact ⟨_, exec_readReg_of_unfaulted off h0⟩
  | _ => cases hi

/-- Settles O14: each clause but the last is a path check that fails (`exec_of_pathCheck`), and a pure read passes it in
every state (`exec_of_isPureRead`). -/
theorem concurrentPathsFault : Obligations.ConcurrentPathsFault := by
  refine ⟨fun i s r h0 hrun hi => ?_, fun i s h0 hlow hhigh hi => ?_, fun i s h0 hi => ?_⟩
  · have hu : pathUse i ≠ .pureRead := mt pathUse_eq_pureRead_iff.1 (by simp [hi])
    exact exec_of_pathCheck h0 (pathCheck_of_run hrun hu)
  · have hp : pathCheck (pathUse i) s = some .concurrentPaths := by
      rw [pathUse_eq_blocking_iff.2 hi]
      exact pathCheck_blocking_of_eventInside (decide_eq_true ⟨hlow, hhigh⟩)
    exact exec_of_pathCheck h0 hp
  · obtain ⟨x, hx⟩ := exec_of_isPureRead h0 hi
    exact ⟨_, hx, h0⟩

/-- In a block not faulted a word that decodes to no command raises ILLEGAL_COMMAND (R190). -/
theorem issueWord_of_illegal {w : Word} {e : IllegalWord} {s : State} (h0 : s.fault = 0) (hw : decode w = .error e) :
    issueWord w s = .next (raiseFault .illegalCommand s) := by
  rw [issueWord, if_neg (not_not.2 h0), hw]

/-- The step of a context with no command outstanding issues the word at the head of its port (R91, R196). -/
theorem step_of_free_context {s u : State} {c : Ctx} {w : Word} {ws : List Word} (h0 : s.fault = 0)
    (hm : takeMove s = (.context c, u)) (hfree : outstanding c s = false) (hport : port c s = w :: ws) :
    step s = issueWord w (atPort c ws u) := by
  obtain rfl : (takeMove s).2 = u := congrArg Prod.snd hm
  rw [step_of_move h0 hm, agentStep, contextStep_of_free ((outstanding_takeMove c s).trans hfree), issueNext,
    (port_takeMove c s).trans hport]

/-- Settles O11: a word with one of those fields decodes to no command (`illegalWordsExactly`), and the step issues it
(`step_of_free_context`). -/
theorem illegalWordFaults : Obligations.IllegalWordFaults := by
  intro s u c w ws h0 hm hfree hport hw
  obtain ⟨e, he⟩ := (illegalWordsExactly w).2 hw
  have hu0 : (atPort c ws u).fault = 0 := by
    rw [atPort_fault, takeMove_snd hm]
    exact h0
  rw [step_of_free_context h0 hm hfree hport, issueWord_of_illegal hu0 he]
  rfl

/-- Settles O12: the check of FAULT comes first in the step and in the issue step of every command (`exec_eq_issue`). -/
theorem faultedBlockHasNoStep : Obligations.FaultedBlockHasNoStep := by
  intro s hf
  refine ⟨if_pos hf, fun i => ?_⟩
  obtain ⟨rule, hrule⟩ := exec_eq_issue i
  rw [hrule, issue_eq_fault hf]

end Sys2Proof.Machine
end

section
/-! The reset state (70_reset_and_hazards.md): the reset table (R211), the launch premise (R216), and every invariant of
the block at reset. -/

namespace Sys2Proof.Machine

open Sys2Proof.Safety

/-- STATUS as read is the masked status value with the prescaler bits under it (R28, R171). -/
theorem statusRaw_eq_statusValue_or (s : State) : statusRaw s = (statusValue s ||| s.cfg.psBits.setWidth 8) := by
  have hlow : s.cfg.psBits.setWidth 8 = 0#5 ++ s.cfg.psBits := BitVec.setWidth_eq_append (by decide)
  rw [hlow, statusValue, BitVec.or_append, BitVec.or_zero, BitVec.zero_or, statusRaw]

/-- STATUS as read while CODE holds a code of a table that meets R80: `name | PS_BITS`. -/
theorem statusRaw_eq_value_or {s : State} {n : StatusName} (hwf : s.cfg.wf = true)
    (hcode : s.code = codeBits s.cfg n) :
    statusRaw s = (s.cfg.statusCodes.value n ||| s.cfg.psBits.setWidth 8) := by
  rw [statusRaw_eq_statusValue_or, ← statusRaw_and_mask, statusRaw_of_code hwf hcode]

theorem outstanding_of_idle {s : State} (h : s.seq = .idle) (c : Ctx) : outstanding c s = false := by
  rw [outstanding, h]

/-- Settles O7: each register and flag is the field `State.resetOf` sets; STATUS as read takes R80, by which the low bits
of NO_INFO are 0 (`statusRaw_eq_value_or`). -/
theorem resetStateValues : Obligations.ResetStateValues := by
  refine ⟨rfl, fun c hwf => ?_⟩
  have hctrl : ctrlByte (State.resetOf c) = 0x00 := by simp [ctrlByte, ctrlSto, State.resetOf]
  have hstatus : statusRaw (State.resetOf c) = (c.statusCodes.noInfo ||| c.psBits.setWidth 8) :=
    statusRaw_eq_value_or (s := State.resetOf c) (n := .noInfo) hwf rfl
  have hfree : ∀ x, outstanding x (State.resetOf c) = false := outstanding_of_idle rfl
  exact ⟨rfl, rfl, rfl, rfl, rfl, hctrl, rfl, rfl, hstatus, rfl, rfl, rfl, rfl, rfl, rfl, rfl, rfl, rfl, rfl, rfl,
    rfl, hfree⟩

/-- "The reset state meets it" (R216). -/
theorem cleanLaunch_resetOf (c : Config) : CleanLaunch (State.resetOf c) where
  fault := rfl
  pend := rfl
  owned := rfl
  afterStart := rfl
  startLatched := rfl
  cap := rfl
  seq := rfl
  stepCtr := rfl
  noneOutstanding := outstanding_of_idle rfl

/-- Nothing is in flight, and no start has completed. -/
theorem engineInv_resetOf (c : Config) : EngineInv (State.resetOf c) := engineInv_of_pend_none rfl rfl rfl nofun

/-- The empty trace leaves the bus free, and ENG does not own it. -/
theorem traceLegal_resetOf (c : Config) : TraceLegal (State.resetOf c) := rfl

theorem seqInv_resetOf (c : Config) : SeqInv (State.resetOf c) := seqInv_of_idle rfl

/-- Reset is the state before the first trigger (R25). -/
theorem enableInv_resetOf (c : Config) : EnableInv (State.resetOf c) := fun _ => ⟨rfl, rfl, rfl, rfl, rfl, rfl⟩

/-- CODE is that of NO_INFO (R29). -/
theorem codeInv_resetOf (c : Config) : CodeInv (State.resetOf c) := ⟨.noInfo, nofun, rfl⟩

/-- RESULT is 0: KIND is NONE (R35). -/
theorem resultInv_resetOf (c : Config) : ResultInv (State.resetOf c) := by simp [ResultInv, State.resetOf]

theorem counterInv_resetOf (c : Config) : CounterInv (State.resetOf c) := ⟨Nat.zero_le 9, Nat.zero_le 4⟩

/-- Settles O8: the launch premise and each invariant at reset, in every configuration. -/
theorem resetMeetsLaunchAndInvariants : Obligations.ResetMeetsLaunchAndInvariants := fun c _ =>
  ⟨cleanLaunch_resetOf c, engineInv_resetOf c, traceLegal_resetOf c, seqInv_resetOf c, enableInv_resetOf c,
    codeInv_resetOf c, resultInv_resetOf c, counterInv_resetOf c⟩

end Sys2Proof.Machine
end
